-- ==== Sys2Proof/Word.lean ====
section
/-! DEFINITION. The bit-vector types of SMVB's command words and of their fields (30_encoding.md R82, R83), and the number domain of its real-valued registers. -/

namespace Sys2Proof

/-- One command: 64 bits, bit 63 the most significant (30 R81, R82). -/
abbrev Word := BitVec 64

/-- The 32-bit operand of a command and the container of a snapshot register (10 R30). -/
abbrev Data := BitVec 32

/-- A note number 0..127 (30 R83: seven bits). -/
abbrev Note := BitVec 7

/-- A velocity 0..127. -/
abbrev Velocity := BitVec 7

/-- A channel 0..15. -/
abbrev Channel := BitVec 4

/-- A real number (00 R8, `NUM`) as plain data: a rational written out, or any other real under a number that
names it. Which real a name stands for is left open (log 1); `Val.real` of Config is the value. -/
inductive Val where
  | rat (q : ℚ)
  | named (n : Nat)
  deriving DecidableEq, Repr, Inhabited

end Sys2Proof
end

