-- ==== Sys2Proof/Syntax.lean ====
section
/-! DEFINITION. The nine commands of SMVB-1 with extension VM (30_encoding.md R80), one constructor per row of the opcode table. -/

namespace Sys2Proof

/-- A command with its operands (30 R83, R84). -/
inductive Instr where
  /-- `INIT sr`: reset, and set the sample rate (41 R150). -/
  | init (sr : Data)
  /-- `SETP idx, data`: write one snapshot register (41 R151). -/
  | setp (idx : BitVec 8) (data : Data)
  /-- `UPDATE`: recompute every derived register (42 R170). -/
  | update
  /-- `NOTEON note, vel`: the Voice's note-on (41 R153). -/
  | noteon (note : Note) (vel : Velocity)
  /-- `NOTEOFF`: the Voice's note-off (41 R154). -/
  | noteoff
  /-- `TICK`: one stereo sample (42 R175). -/
  | tick
  /-- `BLOCK n`: `n` stereo samples (42 R184). -/
  | block (n : Data)
  /-- `EVNOTEON ch, note, vel`: a note event into the note-priority stack (46 R281). -/
  | evnoteon (ch : Channel) (note : Note) (vel : Velocity)
  /-- `EVNOTEOFF ch, note, vel`: a note release into the stack (46 R283). -/
  | evnoteoff (ch : Channel) (note : Note) (vel : Velocity)
  deriving DecidableEq, Repr

end Sys2Proof
end

