-- ==== Sys2Proof/WellFormed.lean ====
section
/-! DEFINITION. Which terms of `Instr` some command word spells (30_encoding.md R84, R88): the side conditions the operand widths do not already impose. -/

namespace Sys2Proof

/-- The side conditions of 30 R84: INIT's sample rate is at least 1, SETP's index at most 14.
Every other operand is bounded by the width of its field (30 R86). -/
def Instr.wellFormed : Instr → Bool
  | .init sr => decide (1 ≤ sr.toNat)
  | .setp idx _ => decide (idx.toNat ≤ 14)
  | .update => true
  | .noteon _ _ => true
  | .noteoff => true
  | .tick => true
  | .block _ => true
  | .evnoteon _ _ _ => true
  | .evnoteoff _ _ _ => true

end Sys2Proof
end

