-- ==== Sys2Proof/Decode.lean ====
section
/-! DEFINITION. The decoder of SMVB's command words, total on every 64-bit word (30_encoding.md R82 to R89), the encoder written from the same tables, the serialisation of a word into bytes (20_memory.md R63), and the assembler's pseudo-instructions and real literals (30 R90, R91). -/

namespace Sys2Proof

/-- Why a word is illegal (30 R88). The block records no cause (60 R314): these are names for readers and tests. -/
inductive IllegalReason where
  /-- the `zero` field is not zero -/
  | zeroField
  /-- the opcode spells no command (30 R87) -/
  | reservedOp
  /-- `idx` is not zero in a command other than SETP -/
  | idxField
  /-- SETP with an index above 14 -/
  | badIndex
  /-- INIT with sample rate 0 -/
  | zeroRate
  /-- a must-be-zero bit of `data` is set (formats Z, N, E) -/
  | dataField
  deriving DecidableEq, Repr

/-- `op`, bits 63:56 (30 R82). -/
def Word.op (w : Word) : BitVec 8 := w.extractLsb' 56 8
/-- `idx`, bits 55:48. -/
def Word.idx (w : Word) : BitVec 8 := w.extractLsb' 48 8
/-- `zero`, bits 47:32. -/
def Word.zero (w : Word) : BitVec 16 := w.extractLsb' 32 16
/-- `data`, bits 31:0. -/
def Word.data (w : Word) : Data := w.extractLsb' 0 32

/-- `note`, bits 6:0 of `data` in formats N and E (30 R83). -/
def Data.note (d : Data) : Note := d.extractLsb' 0 7
/-- `velocity`, bits 14:8 of `data` in formats N and E. -/
def Data.vel (d : Data) : Velocity := d.extractLsb' 8 7
/-- `channel`, bits 19:16 of `data` in format E. -/
def Data.chan (d : Data) : Channel := d.extractLsb' 16 4

/-- Format Z: `idx` and `data` are zero. -/
def decodeZ (w : Word) (i : Instr) : Except IllegalReason Instr :=
  if Word.idx w ≠ 0#8 then .error .idxField
  else if Word.data w ≠ 0#32 then .error .dataField
  else .ok i

/-- Format U with INIT's side condition `u32(data) ≥ 1`. -/
def decodeInit (w : Word) : Except IllegalReason Instr :=
  if Word.idx w ≠ 0#8 then .error .idxField
  else if Word.data w = 0#32 then .error .zeroRate
  else .ok (.init (Word.data w))

/-- Format U of BLOCK: any count. -/
def decodeBlock (w : Word) : Except IllegalReason Instr :=
  if Word.idx w ≠ 0#8 then .error .idxField
  else .ok (.block (Word.data w))

/-- Format P: the index is at most 14; the datum is any word. -/
def decodeSetp (w : Word) : Except IllegalReason Instr :=
  if (Word.idx w).toNat ≤ 14 then .ok (.setp (Word.idx w) (Word.data w))
  else .error .badIndex

/-- Format N: `data[7] = 0` and `data[31:15] = 0`. -/
def decodeN (w : Word) : Except IllegalReason Instr :=
  if Word.idx w ≠ 0#8 then .error .idxField
  else if (Word.data w).extractLsb' 7 1 ≠ 0#1 ∨ (Word.data w).extractLsb' 15 17 ≠ 0#17 then .error .dataField
  else .ok (.noteon (Word.data w).note (Word.data w).vel)

/-- Format E: `data[7] = 0`, `data[15] = 0` and `data[31:20] = 0`; the command is given by its operands. -/
def decodeE (w : Word) (mk : Channel → Note → Velocity → Instr) : Except IllegalReason Instr :=
  if Word.idx w ≠ 0#8 then .error .idxField
  else if (Word.data w).extractLsb' 7 1 ≠ 0#1 ∨ (Word.data w).extractLsb' 15 1 ≠ 0#1
      ∨ (Word.data w).extractLsb' 20 12 ≠ 0#12 then .error .dataField
  else .ok (mk (Word.data w).chan (Word.data w).note (Word.data w).vel)

/-- The decoder of 30 R89, in its order: `zero`, then the opcode, then `idx` and `data`. It runs as if
`HAS_VM` were true (60 R312): without the extension the meaning of EVNOTEON and EVNOTEOFF refuses. -/
def decode (w : Word) : Except IllegalReason Instr :=
  if Word.zero w ≠ 0#16 then .error .zeroField
  else if Word.op w = 0x01#8 then decodeInit w
  else if Word.op w = 0x02#8 then decodeSetp w
  else if Word.op w = 0x03#8 then decodeZ w .update
  else if Word.op w = 0x04#8 then decodeN w
  else if Word.op w = 0x05#8 then decodeZ w .noteoff
  else if Word.op w = 0x06#8 then decodeZ w .tick
  else if Word.op w = 0x07#8 then decodeBlock w
  else if Word.op w = 0x10#8 then decodeE w .evnoteon
  else if Word.op w = 0x11#8 then decodeE w .evnoteoff
  else .error .reservedOp

/-- The instruction a decoded word holds, if it is legal. -/
def decode? (w : Word) : Option Instr := (decode w).toOption

/-! ### The encoder (30 R82, R83, R90) -/

/-- A word from its four fields, most significant first (30 R82). -/
def packWord (op idx : BitVec 8) (data : Data) : Word := op ++ (idx ++ (0#16 ++ data))

/-- The operand of format N. -/
def packN (note : Note) (vel : Velocity) : Data := 0#17 ++ (vel ++ (0#1 ++ note))

/-- The operand of format E. -/
def packE (ch : Channel) (note : Note) (vel : Velocity) : Data := 0#12 ++ (ch ++ (0#1 ++ (vel ++ (0#1 ++ note))))

/-- The opcode of a command (30 R84). -/
def Instr.opcode : Instr → BitVec 8
  | .init _ => 0x01#8
  | .setp _ _ => 0x02#8
  | .update => 0x03#8
  | .noteon _ _ => 0x04#8
  | .noteoff => 0x05#8
  | .tick => 0x06#8
  | .block _ => 0x07#8
  | .evnoteon _ _ _ => 0x10#8
  | .evnoteoff _ _ _ => 0x11#8

/-- The `idx` field of a command: SETP's index, zero in every other command. -/
def Instr.idxField : Instr → BitVec 8
  | .setp idx _ => idx
  | .init _ | .update | .noteon _ _ | .noteoff | .tick | .block _ | .evnoteon _ _ _ | .evnoteoff _ _ _ => 0#8

/-- The `data` field of a command, as its format says (30 R83). -/
def Instr.dataField : Instr → Data
  | .init sr => sr
  | .setp _ data => data
  | .block n => n
  | .noteon note vel => packN note vel
  | .evnoteon ch note vel => packE ch note vel
  | .evnoteoff ch note vel => packE ch note vel
  | .update | .noteoff | .tick => 0#32

/-- The word of a well-formed command. -/
def encode (i : Instr) : Word := packWord i.opcode i.idxField i.dataField

/-! ### The opcode map as masks and matches (30 R84) -/

/-- The `mask` of a command's row of 30 R84. -/
def Instr.mask : Instr → Word
  | .init _ => 0xFFFFFFFF00000000#64
  | .setp _ _ => 0xFF00FFFF00000000#64
  | .update => 0xFFFFFFFFFFFFFFFF#64
  | .noteon _ _ => 0xFFFFFFFFFFFF8080#64
  | .noteoff => 0xFFFFFFFFFFFFFFFF#64
  | .tick => 0xFFFFFFFFFFFFFFFF#64
  | .block _ => 0xFFFFFFFF00000000#64
  | .evnoteon _ _ _ => 0xFFFFFFFFFFF08080#64
  | .evnoteoff _ _ _ => 0xFFFFFFFFFFF08080#64

/-- The `match` of a command's row of 30 R84. -/
def Instr.pattern : Instr → Word
  | .init _ => 0x0100000000000000#64
  | .setp _ _ => 0x0200000000000000#64
  | .update => 0x0300000000000000#64
  | .noteon _ _ => 0x0400000000000000#64
  | .noteoff => 0x0500000000000000#64
  | .tick => 0x0600000000000000#64
  | .block _ => 0x0700000000000000#64
  | .evnoteon _ _ _ => 0x1000000000000000#64
  | .evnoteoff _ _ _ => 0x1100000000000000#64

/-! ### A serialised command word (20 R63) -/

/-- `CMD_BYTE_ORDER` (00 R6): the byte order of a command word a transport serialises; default least significant byte first. -/
inductive ByteOrder where
  | lsbFirst
  | msbFirst
  deriving DecidableEq, Repr

/-- The word a list of bytes spells, least significant byte first. -/
def wordOfLsb : List (BitVec 8) → Nat
  | [] => 0
  | b :: bs => b.toNat + 256 * wordOfLsb bs

/-- The command word of eight serialised bytes; any other number of bytes is no word. -/
def deserialise (o : ByteOrder) (bytes : List (BitVec 8)) : Option Word :=
  if bytes.length = 8 then
    some (BitVec.ofNat 64 (wordOfLsb (match o with | .lsbFirst => bytes | .msbFirst => bytes.reverse)))
  else none

/-- The eight bytes of a command word. -/
def serialise (o : ByteOrder) (w : Word) : List (BitVec 8) :=
  let bytes := (List.range 8).map fun k => w.extractLsb' (8 * k) 8
  match o with
  | .lsbFirst => bytes
  | .msbFirst => bytes.reverse

/-! ### Assembler (30 R90, R91) -/

/-- A line of an assembler program, operands already converted: a command or a pseudo-instruction. -/
inductive AsmLine where
  | cmd (i : Instr)
  /-- `SNAP v0, …, v14` -/
  | snap (values : Vector Data 15)
  /-- `TICKS n` -/
  | ticks (n : Data)
  deriving DecidableEq, Repr

/-- What a line expands to (30 R91): SNAP is SETP 0 to SETP 14 and UPDATE, TICKS is BLOCK. -/
def AsmLine.expand : AsmLine → List Instr
  | .cmd i => [i]
  | .snap values => ((List.finRange 15).map fun i => Instr.setp (BitVec.ofNat 8 i.val) values[i]) ++ [.update]
  | .ticks n => [.block n]

/-- The nearest integer, ties to the even one. -/
def roundHalfEven (x : ℚ) : Int :=
  let lo := ⌊x⌋
  let r := x - lo
  if r < 1 / 2 then lo
  else if 1 / 2 < r then lo + 1
  else if lo % 2 = 0 then lo else lo + 1

/-- A real literal of SETP: the nearest multiple of 2^-16, ties to the even multiple, refused outside
the Q16.16 range (30 R90). -/
def q16Literal (x : ℚ) : Option Data :=
  if -32768 ≤ x ∧ x ≤ 32768 - 1 / 65536 then some (BitVec.ofInt 32 (roundHalfEven (x * 65536))) else none

/-- The assembler text of a command (30 R90), SETP's datum as an integer. -/
def Instr.text : Instr → String
  | .init sr => "INIT " ++ toString sr.toNat
  | .setp idx data => "SETP " ++ toString idx.toNat ++ ", " ++ toString data.toNat
  | .update => "UPDATE"
  | .noteon note vel => "NOTEON " ++ toString note.toNat ++ ", " ++ toString vel.toNat
  | .noteoff => "NOTEOFF"
  | .tick => "TICK"
  | .block n => "BLOCK " ++ toString n.toNat
  | .evnoteon ch note vel => "EVNOTEON " ++ toString ch.toNat ++ ", " ++ toString note.toNat ++ ", " ++ toString vel.toNat
  | .evnoteoff ch note vel => "EVNOTEOFF " ++ toString ch.toNat ++ ", " ++ toString note.toNat ++ ", " ++ toString vel.toNat

/-- The instruction the decoder reads from the word `w` of a table row. Every command is one 64-bit
word (30 R81), so `nbits` is 64 and bit 0 of `w` is the word's least significant bit. -/
def decodeTableWord (_nbits w : Nat) : Option Instr := decode? (BitVec.ofNat 64 w)

end Sys2Proof
end

