-- ==== Sys2Proof/Config/Contracts.lean ====
section
/-! DEFINITION. The number domain NUM (00_scope.md R8, 40_primitives.md R110) and the contracts of the OPEN functions (40 R111, R115) as structures that carry their laws, and one inhabitant of each, which shows that they can be met. The inhabitants are no part of the machine: the machine uses the opaque constant Config.num. -/

namespace Sys2Proof

/-! ### The real numbers (00 R8, 40 R110) -/

/-- The real numbers of a run: the value of each datum, and the exact operations of R110 on the data. -/
structure RealNums where
  real : Val → ℝ
  add : Val → Val → Val
  sub : Val → Val → Val
  mul : Val → Val → Val
  div : Val → Val → Val
  le : Val → Val → Bool
  floor : Val → Int
  real_rat : ∀ q : ℚ, real (.rat q) = q
  real_add : ∀ a b, real (add a b) = real a + real b
  real_sub : ∀ a b, real (sub a b) = real a - real b
  real_mul : ∀ a b, real (mul a b) = real a * real b
  real_div : ∀ a b, real (div a b) = real a / real b
  le_iff : ∀ a b, le a b = true ↔ real a ≤ real b
  floor_eq : ∀ a, floor a = ⌊real a⌋

/-! ### Transcendental functions (40 R111) -/

/-- Functions `EXP2`, `POW`, `EXP`, `SINT` and the constant `PI` with exactly the identities that R111
lets a claim assume; a value depends on the real argument alone. -/
structure MathFns (real : Val → ℝ) where
  exp2 : Val → Val
  pow : Val → Val → Val
  exp : Val → Val
  sint : Val → Val
  pi : Val
  exp2_congr : ∀ x y, real x = real y → real (exp2 x) = real (exp2 y)
  pow_congr : ∀ b c x y, real b = real c → real x = real y → real (pow b x) = real (pow c y)
  exp_congr : ∀ x y, real x = real y → real (exp x) = real (exp y)
  sint_congr : ∀ x y, real x = real y → real (sint x) = real (sint y)
  exp2_zero : ∀ x, real x = 0 → real (exp2 x) = 1
  exp2_lt : ∀ x y, real x < real y → real (exp2 x) < real (exp2 y)
  pow_zero : ∀ b e, 0 < real b → real e = 0 → real (pow b e) = 1
  pow_one : ∀ b e, 0 ≤ real b → real e = 1 → real (pow b e) = real b
  zero_pow : ∀ b e, real b = 0 → 0 < real e → real (pow b e) = 0
  one_pow : ∀ b e, real b = 1 → real (pow b e) = 1
  pow_lt_right : ∀ b x y, 1 < real b → real x < real y → real (pow b x) < real (pow b y)
  pow_lt_left : ∀ b c e, 0 < real e → 0 ≤ real b → real b < real c → real (pow b e) < real (pow c e)
  sint_zero : ∀ t, real t = 0 → real (sint t) = 0
  abs_sint_le : ∀ t, |real (sint t)| ≤ 1
  sint_add_one : ∀ t u, real u = real t + 1 → real (sint u) = real (sint t)
  exp_pos_of_neg : ∀ x, real x < 0 → 0 < real (exp x)
  exp_lt_one_of_neg : ∀ x, real x < 0 → real (exp x) < 1

/-- The ideal functions of R111: besides the identities, 2^x at whole x, 10000^x at quarter x and the sine at
quarter turns (the points the spec's tables use: 42 R178, 44 R231, R233) are exact, and `3 < π < 4`. -/
structure IdealMath (real : Val → ℝ) extends MathFns real where
  exp2_int : ∀ (x : Val) (n : ℤ), real x = n → real (exp2 x) = 2 ^ n
  pow_quarter : ∀ (b x : Val) (n : ℤ), real b = 10000 → real x = n / 4 → real (pow b x) = 10 ^ n
  sint_quarter : ∀ t, real t = 1 / 4 → real (sint t) = 1
  sint_half : ∀ t, real t = 1 / 2 → real (sint t) = 0
  sint_three_quarters : ∀ t, real t = 3 / 4 → real (sint t) = -1
  three_lt_pi : 3 < real pi
  pi_lt_four : real pi < 4

/-- An admissible `SOFTCLIP` (40 R115): odd, non-decreasing, values in [-1, 1]. -/
structure Limiter (real : Val → ℝ) where
  f : Val → Val
  odd : ∀ x y, real y = -real x → real (f y) = -real (f x)
  mono : ∀ x y, real x ≤ real y → real (f x) ≤ real (f y)
  bounded : ∀ x, -1 ≤ real (f x) ∧ real (f x) ≤ 1

/-- The number domain `NUM` with the functions that live on it: the ideal ones, an implementation's own, and an
implementation's limiter. -/
structure NumDomain where
  nums : RealNums
  ideal : IdealMath nums.real
  own : MathFns nums.real
  limiter : Limiter nums.real

/-! ### The contracts can be met

A weight that rises from 0 to 1 gives `b^⌊e⌋ · (1 + (b - 1) · weight (frac e))`, which agrees with `b^e` at
whole `e` and has every identity of R111. -/

/-- A strictly increasing weight with value 0 at 0 and 1 at 1, linear between quarters; at a quarter `j/4`
it is `(10^j - 1) / 9999`. -/
def Contract.weight (t : ℚ) : ℚ :=
  if t < 1/4 then 36 * t / 9999
  else if t < 1/2 then (9 + 360 * (t - 1/4)) / 9999
  else if t < 3/4 then (99 + 3600 * (t - 1/2)) / 9999
  else (999 + 36000 * (t - 3/4)) / 9999

theorem Contract.weight_strictMono : StrictMono Contract.weight := by
  intro a b h
  unfold Contract.weight
  split_ifs <;> linarith

theorem Contract.weight_zero : Contract.weight 0 = 0 := by norm_num [Contract.weight]

theorem Contract.weight_nonneg {t : ℚ} (h : 0 ≤ t) : 0 ≤ Contract.weight t :=
  Contract.weight_zero ▸ Contract.weight_strictMono.monotone h

theorem Contract.weight_lt_one {t : ℚ} (h : t < 1) : Contract.weight t < 1 := by
  have := Contract.weight_strictMono h
  norm_num [Contract.weight] at this ⊢
  exact this

/-- The power of the inhabitant. -/
def Contract.power (b e : ℚ) : ℚ :=
  if b = 0 then (if 0 < e then 0 else 1) else b ^ ⌊e⌋ * (1 + (b - 1) * Contract.weight (Int.fract e))

theorem Contract.power_int {b : ℚ} (hb : b ≠ 0) (n : ℤ) : Contract.power b n = b ^ n := by
  simp [Contract.power, hb, Contract.weight_zero]

theorem Contract.power_strictMono_right (b : ℚ) (hb : 1 < b) : StrictMono (Contract.power b) := by
  intro x y h
  have hb0 : b ≠ 0 := by linarith
  have hpos : ∀ n : ℤ, 0 < b ^ n := fun n => zpow_pos (by linarith) n
  have fx1 := Contract.weight_lt_one (Int.fract_lt_one x)
  have fy := Contract.weight_nonneg (Int.fract_nonneg y)
  simp only [Contract.power, hb0, if_false]
  rcases (Int.floor_le_floor h.le).lt_or_eq with hl | he
  · calc b ^ ⌊x⌋ * (1 + (b - 1) * Contract.weight (Int.fract x))
        < b ^ ⌊x⌋ * b := by have := hpos ⌊x⌋; gcongr; nlinarith
      _ = b ^ (⌊x⌋ + 1) := by rw [zpow_add_one₀ hb0]
      _ ≤ b ^ ⌊y⌋ := zpow_le_zpow_right₀ hb.le (by omega)
      _ ≤ b ^ ⌊y⌋ * (1 + (b - 1) * Contract.weight (Int.fract y)) :=
        le_mul_of_one_le_right (hpos _).le (by nlinarith)
  · have hf : Int.fract x < Int.fract y := by rw [Int.fract, Int.fract, he]; linarith
    have := Contract.weight_strictMono hf
    have := hpos ⌊y⌋
    rw [he]; gcongr

theorem Contract.power_strictMono_left (e : ℚ) (he : 0 < e) :
    StrictMonoOn (fun b => Contract.power b e) (Set.Ici 0) := by
  intro x hx y hy h
  simp only [Set.mem_Ici] at hx hy
  have hy0 : 0 < y := lt_of_le_of_lt hx h
  have hfl : 0 ≤ ⌊e⌋ := Int.floor_nonneg.mpr he.le
  have k0 := Contract.weight_nonneg (Int.fract_nonneg e)
  have k1 := Contract.weight_lt_one (Int.fract_lt_one e)
  have facpos : ∀ z : ℚ, 0 ≤ z → 0 < 1 + (z - 1) * Contract.weight (Int.fract e) := by
    intro z hz; nlinarith
  simp only [Contract.power, hy0.ne', if_false, he, if_true]
  by_cases hx0 : x = 0
  · simpa only [hx0, if_true] using mul_pos (zpow_pos hy0 _) (facpos y hy)
  · simp only [hx0, if_false]
    rcases hfl.lt_or_eq with hlt | heq
    · have h2 : 1 + (x - 1) * Contract.weight (Int.fract e) ≤ 1 + (y - 1) * Contract.weight (Int.fract e) := by
        nlinarith
      exact mul_lt_mul (zpow_lt_zpow_left₀ hlt hx h) h2 (facpos x hx) (zpow_nonneg hy _)
    · have hk : 0 < Contract.weight (Int.fract e) := by
        rw [← Contract.weight_zero]
        apply Contract.weight_strictMono
        rw [Int.fract, ← heq]; simpa using he
      simp only [← heq, zpow_zero, one_mul]
      nlinarith

theorem Contract.power_quarter (n : ℤ) : Contract.power 10000 (n / 4) = 10 ^ n := by
  obtain ⟨q, r, hr0, hr4, hn⟩ : ∃ q r : ℤ, 0 ≤ r ∧ r < 4 ∧ n = 4 * q + r :=
    ⟨n / 4, n % 4, by omega, by omega, by omega⟩
  have hx : (n : ℚ) / 4 = (q : ℚ) + (r : ℚ) / 4 := by subst hn; push_cast; ring
  have h0 : (0 : ℚ) ≤ (r : ℚ) := by exact_mod_cast hr0
  have h4 : (r : ℚ) < 4 := by exact_mod_cast hr4
  have hfl : ⌊(n : ℚ) / 4⌋ = q := by
    rw [hx, Int.floor_eq_iff]; constructor <;> linarith
  have hfr : Int.fract ((n : ℚ) / 4) = (r : ℚ) / 4 := by rw [Int.fract, hfl, hx]; ring
  have h10 : (10000 : ℚ) ^ q = 10 ^ (4 * q) := by
    rw [show (10000 : ℚ) = 10 ^ (4 : ℤ) by norm_num, ← zpow_mul]
  have hb : (10000 : ℚ) ≠ 0 := by norm_num
  rw [Contract.power, if_neg hb, hfl, hfr, h10, hn, zpow_add₀ (by norm_num)]
  congr 1
  interval_cases r <;> norm_num [Contract.weight]

/-- The inhabitant's reading of a datum: every name stands for 0. -/
def Contract.toRat : Val → ℚ
  | .rat q => q
  | .named _ => 0

/-- An inhabitant of the real numbers. -/
def Contract.nums : RealNums where
  real := fun v => (Contract.toRat v : ℝ)
  add := fun a b => .rat (Contract.toRat a + Contract.toRat b)
  sub := fun a b => .rat (Contract.toRat a - Contract.toRat b)
  mul := fun a b => .rat (Contract.toRat a * Contract.toRat b)
  div := fun a b => .rat (Contract.toRat a / Contract.toRat b)
  le := fun a b => decide (Contract.toRat a ≤ Contract.toRat b)
  floor := fun a => ⌊Contract.toRat a⌋
  real_rat := fun _ => rfl
  real_add := fun a b => by simp [Contract.toRat]
  real_sub := fun a b => by simp [Contract.toRat]
  real_mul := fun a b => by simp [Contract.toRat]
  real_div := fun a b => by simp [Contract.toRat]
  le_iff := fun a b => by simp
  floor_eq := fun a => by simp

/-- The inhabitant's sine: exact at quarter turns, 0 elsewhere. -/
def Contract.sine (t : ℚ) : ℚ := if Int.fract t = 1 / 4 then 1 else if Int.fract t = 3 / 4 then -1 else 0

theorem Contract.abs_sine_le (t : ℚ) : |Contract.sine t| ≤ 1 := by
  unfold Contract.sine; split_ifs <;> norm_num

/-- The inhabitant's exponential: between 0 and 1 below 0. -/
def Contract.expo (x : ℚ) : ℚ := if x < 0 then 1 / (1 - x) else 1

theorem Contract.nums_real (v : Val) : Contract.nums.real v = (Contract.toRat v : ℝ) := rfl

/-- A datum of the inhabitant reads as a rational number `q` if its real value is `q`. -/
theorem Contract.toRat_eq {v : Val} {q : ℚ} (h : Contract.nums.real v = (q : ℝ)) : Contract.toRat v = q :=
  Rat.cast_injective h

theorem Contract.toRat_le {v w : Val} : Contract.nums.real v ≤ Contract.nums.real w ↔ Contract.toRat v ≤ Contract.toRat w :=
  Rat.cast_le

theorem Contract.toRat_lt {v w : Val} : Contract.nums.real v < Contract.nums.real w ↔ Contract.toRat v < Contract.toRat w :=
  Rat.cast_lt

theorem Contract.toRat_zero {v : Val} (h : Contract.nums.real v = 0) : Contract.toRat v = 0 :=
  Contract.toRat_eq (h.trans Rat.cast_zero.symm)

theorem Contract.toRat_one {v : Val} (h : Contract.nums.real v = 1) : Contract.toRat v = 1 :=
  Contract.toRat_eq (h.trans Rat.cast_one.symm)

theorem Contract.toRat_pos {v : Val} : 0 < Contract.nums.real v ↔ 0 < Contract.toRat v := Rat.cast_pos

theorem Contract.toRat_nonneg {v : Val} : 0 ≤ Contract.nums.real v ↔ 0 ≤ Contract.toRat v := Rat.cast_nonneg

theorem Contract.toRat_neg {v : Val} : Contract.nums.real v < 0 ↔ Contract.toRat v < 0 := Rat.cast_lt_zero

theorem Contract.toRat_one_lt {v : Val} : 1 < Contract.nums.real v ↔ 1 < Contract.toRat v := by
  rw [← Rat.cast_one (α := ℝ)]; exact Rat.cast_lt

/-- What the inhabitant computes, as a real number. -/
theorem Contract.real_eq {p q : ℚ} {r : ℝ} (h : p = q) (hr : r = (q : ℝ)) : Contract.nums.real (.rat p) = r := by
  rw [hr, ← h]; rfl

/-- An inhabitant of both contracts of R111. -/
def Contract.math : IdealMath Contract.nums.real where
  exp2 := fun x => .rat (Contract.power 2 (Contract.toRat x))
  pow := fun b e => .rat (Contract.power (Contract.toRat b) (Contract.toRat e))
  exp := fun x => .rat (Contract.expo (Contract.toRat x))
  sint := fun t => .rat (Contract.sine (Contract.toRat t))
  pi := .rat (355 / 113)
  exp2_congr := fun x y h => by rw [Contract.toRat_eq h]
  pow_congr := fun b c x y h h' => by rw [Contract.toRat_eq h, Contract.toRat_eq h']
  exp_congr := fun x y h => by rw [Contract.toRat_eq h]
  sint_congr := fun x y h => by rw [Contract.toRat_eq h]
  exp2_zero := fun x h => Contract.real_eq
    (by rw [Contract.toRat_zero h]; simpa using Contract.power_int (b := 2) (by norm_num) 0) Rat.cast_one.symm
  exp2_lt := fun x y h => Rat.cast_lt.mpr (Contract.power_strictMono_right 2 (by norm_num) (Rat.cast_lt.mp h))
  pow_zero := fun b e hb he => Contract.real_eq
    (by rw [Contract.toRat_zero he]; simpa using Contract.power_int (Contract.toRat_pos.mp hb).ne' 0) Rat.cast_one.symm
  pow_one := fun b e hb he => by
    rw [Contract.nums_real b]
    refine Contract.real_eq ?_ rfl
    rw [Contract.toRat_one he]
    rcases (Contract.toRat_nonneg.mp hb).lt_or_eq with h | h
    · simpa using Contract.power_int h.ne' 1
    · simp [Contract.power, ← h]
  zero_pow := fun b e hb he => Contract.real_eq
    (by rw [Contract.toRat_zero hb, Contract.power, if_pos rfl, if_pos (Contract.toRat_pos.mp he)]) Rat.cast_zero.symm
  one_pow := fun b e hb => Contract.real_eq (by rw [Contract.toRat_one hb]; simp [Contract.power]) Rat.cast_one.symm
  pow_lt_right := fun b x y hb h =>
    Rat.cast_lt.mpr (Contract.power_strictMono_right _ (Contract.toRat_one_lt.mp hb) (Rat.cast_lt.mp h))
  pow_lt_left := fun b c e he hb h => by
    have hb := Contract.toRat_nonneg.mp hb
    have h := Contract.toRat_lt.mp h
    exact Rat.cast_lt.mpr (Contract.power_strictMono_left _ (Contract.toRat_pos.mp he) (Set.mem_Ici.mpr hb)
      (Set.mem_Ici.mpr (hb.trans h.le)) h)
  sint_zero := fun t h => Contract.real_eq
    (by rw [Contract.toRat_zero h]; norm_num [Contract.sine]) Rat.cast_zero.symm
  abs_sint_le := fun t => by
    have h := Contract.abs_sine_le (Contract.toRat t)
    rw [Contract.nums_real, ← Rat.cast_abs, ← Rat.cast_one]
    exact Rat.cast_le.mpr h
  sint_add_one := fun t u h => by
    have h : Contract.toRat u = Contract.toRat t + 1 :=
      Contract.toRat_eq (by rw [h, Contract.nums_real]; push_cast; rfl)
    simp only [Contract.sine, h, Int.fract_add_one]
  exp_pos_of_neg := fun x h => by
    have h := Contract.toRat_neg.mp h
    refine Contract.toRat_pos.mpr ?_
    show 0 < Contract.expo _
    rw [Contract.expo, if_pos h]; exact one_div_pos.mpr (by linarith)
  exp_lt_one_of_neg := fun x h => by
    have h := Contract.toRat_neg.mp h
    rw [Contract.nums_real, ← Rat.cast_one]
    refine Rat.cast_lt.mpr ?_
    show Contract.expo _ < 1
    rw [Contract.expo, if_pos h, div_lt_one (by linarith)]; linarith
  exp2_int := fun x n h => Contract.real_eq (q := 2 ^ n)
    (by rw [Contract.toRat_eq (q := n) (by rw [h, Rat.cast_intCast])]; exact Contract.power_int (by norm_num) n)
    (by push_cast; rfl)
  pow_quarter := fun b x n hb h => Contract.real_eq (q := 10 ^ n)
    (by
      rw [Contract.toRat_eq (q := 10000) (by rw [hb]; norm_num), Contract.toRat_eq (q := n / 4) (by rw [h]; push_cast; rfl)]
      exact Contract.power_quarter n)
    (by push_cast; rfl)
  sint_quarter := fun t h => Contract.real_eq
    (by
      rw [Contract.toRat_eq (q := 1 / 4) (by rw [h]; norm_num), Contract.sine, Int.fract_eq_self.mpr (by norm_num)]
      norm_num)
    Rat.cast_one.symm
  sint_half := fun t h => Contract.real_eq
    (by
      rw [Contract.toRat_eq (q := 1 / 2) (by rw [h]; norm_num), Contract.sine, Int.fract_eq_self.mpr (by norm_num)]
      norm_num)
    Rat.cast_zero.symm
  sint_three_quarters := fun t h => Contract.real_eq (q := -1)
    (by
      rw [Contract.toRat_eq (q := 3 / 4) (by rw [h]; norm_num), Contract.sine, Int.fract_eq_self.mpr (by norm_num)]
      norm_num)
    (by norm_num)
  three_lt_pi := by norm_num [Contract.nums, Contract.toRat]
  pi_lt_four := by norm_num [Contract.nums, Contract.toRat]

/-- An inhabitant of `Limiter`: the clamp itself. -/
def Contract.limiter : Limiter Contract.nums.real where
  f := fun x => .rat (min (max (Contract.toRat x) (-1)) 1)
  odd := fun x y h => by
    have h : Contract.toRat y = -Contract.toRat x := Contract.toRat_eq (by rw [h, Contract.nums_real]; push_cast; rfl)
    refine (Contract.real_eq (q := -min (max (Contract.toRat x) (-1)) 1) (by grind) ?_)
    rw [Rat.cast_neg]; rfl
  mono := fun x y h => Rat.cast_le.mpr (min_le_min_right 1 (max_le_max_right (-1) (Contract.toRat_le.mp h)))
  bounded := fun x => by
    have h : -1 ≤ min (max (Contract.toRat x) (-1)) 1 ∧ min (max (Contract.toRat x) (-1)) 1 ≤ 1 := by grind
    have lo := Rat.cast_le (K := ℝ).mpr h.1
    have hi := Rat.cast_le (K := ℝ).mpr h.2
    rw [Rat.cast_neg, Rat.cast_one] at lo
    rw [Rat.cast_one] at hi
    exact ⟨lo, hi⟩

/-- An inhabitant of the number domain. -/
def Contract.domain : NumDomain := ⟨Contract.nums, Contract.math, Contract.math.toMathFns, Contract.limiter⟩

end Sys2Proof
end

