-- ==== Sys2Proof/Config.lean ====
section
/-! DEFINITION. What an implementation fixes (00_scope.md R6) and the free values: the functions and primitives the spec leaves OPEN, each an opaque constant that no proof can see into, bound only by the limits the spec states (40_primitives.md R111, R115, R127). -/

namespace Sys2Proof

/-! ### Parameters that are plain data, held in State (log 3) -/

/-- Which instantiation of an OPEN function or primitive is in force: the default or reference one
the spec writes down, or an arbitrary one of its own that keeps the contract (40 R127). -/
inductive Prim where
  | reference
  | own
  deriving DecidableEq, Repr

/-- `LFO_AB`: the LFO mode when booleans A and B are both set (44 R230). -/
inductive LfoAB where
  | firstRow
  | catchAll
  deriving DecidableEq, Repr

/-- The parameters of 00 R6 that are data: a configuration is a value of this type, and no command writes it. -/
structure Params where
  /-- `HAS_VM` -/
  hasVM : Bool
  /-- `LFO_AB` -/
  lfoAB : LfoAB
  /-- `RETRIG_HARD` -/
  retrigHard : Bool
  /-- `FREQ_INIT`, a real ≥ 0 -/
  freqInit : Val
  /-- `EXP2`, `POW`, `EXP`, `SINT`, `PI`: the ideal functions or an approximation (R111) -/
  math : Prim
  /-- `NOTE2HZ` (R155) -/
  note2hz : Prim
  /-- `SOFTCLIP` (R115) -/
  softClip : Prim
  /-- `SHAPE1`, `SHAPE2`, `SHAPE3` (R117) -/
  shapes : Prim
  /-- `SAW_MORPH_PW` (R118) -/
  sawMorph : Prim
  /-- `VAROSC` (R120) -/
  varOsc : Prim
  /-- `LADDER` (R122) -/
  ladder : Prim
  /-- `ONEPOLE` (R124) -/
  onePole : Prim
  /-- `ENV_LAW` (R260, R265) -/
  envLaw : Prim
  /-- the internals of the periodic, stepped and smoothed LFO generators (R233 to R237, D30) -/
  lfoGens : Prim
  deriving DecidableEq, Repr

/-- The state of an arbitrary primitive, which the spec leaves to the primitive (10 R45): a list of numbers. -/
abbrev Hidden := List Val

/-- The waveform argument of VAROSC (40 R120). -/
inductive Wave where
  | square
  | sawMorph
  | triangle
  deriving DecidableEq, Repr

/-- The arguments of VAROSC's `step` after the state (40 R120). -/
structure OscIn where
  /-- frequency in Hz -/
  f : Val
  wave : Wave
  /-- pulse width or morph position -/
  pw : Val
  syncOn : Bool
  /-- frequency of the synchronised output oscillator -/
  fs : Val
  deriving DecidableEq, Repr

/-- The envelope parameters `T_ATT`, `T_DEC`, `T_REL`, `SUS` (10 R33, 45 R262). -/
structure EnvRegs where
  tAtt : Val
  tDec : Val
  tRel : Val
  sus : Val
  deriving DecidableEq, Repr

/-- The LFO modes in the order of `L_MODE` 0..5 (10 R33, 44 R230). -/
inductive LfoMode where
  | sine
  | triangle
  | pitchLocked
  | stepped
  | smoothed
  | colored
  deriving DecidableEq, Repr

/-- The three noise streams of a TICK (40 R125). -/
inductive NoiseStream where
  | sh
  | sm
  | cn
  deriving DecidableEq, Repr

/-! ### Free values (opaque: no proof can evaluate one) -/

/-- Free value `NUM`: the real numbers, the ideal functions of R111, an implementation's own functions and an
admissible limiter curve, bound by their contracts alone (00 R8, 40 R110, R111, R115; log 1, log 2, log 5). -/
opaque Config.numOf [Inhabited NumDomain] : NumDomain

/-- The number domain `NUM` in force. -/
def Config.num : NumDomain := @Config.numOf ⟨Contract.domain⟩

/-- The real number a datum stands for. -/
def Val.real (v : Val) : ℝ := Config.num.nums.real v

/-- Free value `FREQ_INIT` (10 R24, D17: no default is chosen; log 4). -/
opaque Config.freqInit : Val

/-- Free value: the noise draw of a stream at a TICK, by the counter of State (40 R125, log 6). -/
opaque Config.noise : NoiseStream → Nat → Val

/-- Free value: an arbitrary `NOTE2HZ` (41 R155, log 5). -/
opaque Config.note2hz : Note → Val

/-- Free values: arbitrary `SHAPE1`, `SHAPE2`, `SHAPE3` (40 R117, log 5). -/
opaque Config.shape1 : Val → Val
opaque Config.shape2 : Val → Val
opaque Config.shape3 : Val → Val

/-- Free value: an arbitrary `SAW_MORPH_PW` (40 R118, log 5). -/
opaque Config.sawMorphPw : Val → Val

/-- Free values: an arbitrary VAROSC (40 R120, log 5): `init SR`, and `step SR st input`. -/
opaque Config.oscInit : Val → Hidden
opaque Config.oscStep : Val → Hidden → OscIn → Hidden × Val

/-- Free values: an arbitrary LADDER (40 R122, log 5): `init SR`, and `process SR fc res st x`. -/
opaque Config.ladderInit : Val → Hidden
opaque Config.ladderProcess : Val → Val → Val → Hidden → Val → Hidden × Val

/-- Free value: an arbitrary ONEPOLE (40 R124, log 5): `lp SR y x`. -/
opaque Config.onePole : Val → Val → Val → Val

/-- Free values: an arbitrary envelope law for ENV1 (45 R260, log 5): `init SR`, `step SR registers st gate`, and
the forced new attack. -/
opaque Config.envInit : Val → Hidden
opaque Config.envStep : Val → EnvRegs → Hidden → Bool → Hidden × Val
opaque Config.envRetrigger : Hidden → Hidden

/-- Free value: an arbitrary release-only law for ENV2 (45 R265, log 5): `step SR release st gate`. -/
opaque Config.env2Step : Val → Val → Hidden → Bool → Hidden × Val

/-- Free values: the internals of an arbitrary LFO generator (44 R232, D30, log 5): its state after INIT, and
`step mode SR rate draw st`. -/
opaque Config.lfoInit : LfoMode → Val → Hidden
opaque Config.lfoStep : LfoMode → Val → Val → Val → Hidden → Hidden × Val

/-- Free value `OUT_FMT` (20 R62, log 14): how one stereo sample is carried to a converter, as bytes. -/
opaque Config.outFmt : Val × Val → List (BitVec 8)

end Sys2Proof
end

