-- ==== Sys2Proof/Machine/Arith.lean ====
section
/-! DEFINITION. Arithmetic on real numbers held as data (00_scope.md R8, 40_primitives.md R110). Each operation is the exact one of the number domain; on two rationals it is computed here, which Laws/Arith.lean proves to be the same (log 1). A quotient by zero, which no rule forms, is 0 (log 13). -/

namespace Sys2Proof

/-- Addition. -/
def Val.add : Val → Val → Val
  | .rat a, .rat b => .rat (a + b)
  | a, b => Config.num.nums.add a b

/-- Subtraction. -/
def Val.sub : Val → Val → Val
  | .rat a, .rat b => .rat (a - b)
  | a, b => Config.num.nums.sub a b

/-- Multiplication. -/
def Val.mul : Val → Val → Val
  | .rat a, .rat b => .rat (a * b)
  | a, b => Config.num.nums.mul a b

/-- Division. -/
def Val.div : Val → Val → Val
  | .rat a, .rat b => .rat (a / b)
  | a, b => Config.num.nums.div a b

/-- The comparison `a ≤ b`. -/
def Val.le : Val → Val → Bool
  | .rat a, .rat b => decide (a ≤ b)
  | a, b => Config.num.nums.le a b

/-- `⌊v⌋`. -/
def Val.floor : Val → Int
  | .rat a => ⌊a⌋
  | a => Config.num.nums.floor a

/-- The comparison `a < b`. -/
def Val.lt (a b : Val) : Bool := !b.le a

/-- The comparison `a = b` of two real numbers. -/
def Val.same (a b : Val) : Bool := a.le b && b.le a

/-- `min(a, b)`, `a` on a tie. -/
def Val.min (a b : Val) : Val := if a.le b then a else b

/-- `max(a, b)`, `a` on a tie. -/
def Val.max (a b : Val) : Val := if b.le a then a else b

/-- `-v`. -/
def Val.neg (v : Val) : Val := (Val.rat 0).sub v

/-- `|v|`. -/
def Val.abs (v : Val) : Val := v.max v.neg

/-- `v²`. -/
def Val.sq (v : Val) : Val := v.mul v

/-- `clamp(v, lo, hi) = min(max(v, lo), hi)`. -/
def Val.clamp (v lo hi : Val) : Val := (v.max lo).min hi

/-- `frac(v) = v − ⌊v⌋`. -/
def Val.frac (v : Val) : Val := v.sub (.rat v.floor)

/-- `v mod m = v − m·⌊v/m⌋`. -/
def Val.mod (v m : Val) : Val := v.sub (m.mul (.rat (v.div m).floor))

end Sys2Proof
end

