-- ==== Sys2Proof/Machine/Constants.lean ====
section
/-! DEFINITION. The literals of 00_scope.md R6 marked fixed or decided, and the parameters a power-on machine has. -/

namespace Sys2Proof.Machine

/-- `RES_MAX` = 0.93 (decided by the spec, D20). -/
def resMax : Val := .rat (93 / 100)
/-- `CUT_MIN`, in Hz. -/
def cutMin : Val := .rat 20
/-- `CUT_MAX`, in Hz. -/
def cutMax : Val := .rat 18000
/-- `DRIVE_MAX`. -/
def driveMax : Val := .rat 3
/-- `OCT_RANGE`, octaves per unit of cutoff or sync modulation. -/
def octRange : Val := .rat 5
/-- `ATT_MIN, ATT_MAX, ATT_CURVE`. -/
def attMin : Val := .rat (2 / 1000)
def attMax : Val := .rat 2
def attCurve : Val := .rat (7 / 10)
/-- `DEC_MIN, DEC_MAX, DEC_CURVE`. -/
def decMin : Val := .rat (3 / 1000)
def decMax : Val := .rat (3 / 2)
def decCurve : Val := .rat (1 / 2)
/-- `REL_MIN, REL_MAX, REL_CURVE`. -/
def relMin : Val := .rat (10 / 1000)
def relMax : Val := .rat 3
def relCurve : Val := .rat (1 / 2)
/-- `LFO_FMIN, LFO_FMAX`, in Hz. -/
def lfoFmin : Val := .rat (1 / 100)
def lfoFmax : Val := .rat 100
/-- `PL_RMIN, PL_RMAX` and `PL_FMAX` in Hz. -/
def plRmin : Val := .rat (1 / 2)
def plRmax : Val := .rat 4
def plFmax : Val := .rat 20000
/-- `RND_FMIN, RND_FMAX`, in Hz. -/
def rndFmin : Val := .rat 1
def rndFmax : Val := .rat 50
/-- `CN_FC`, in Hz. -/
def cnFc : Val := .rat 200
/-- `FOLD_GAIN`. -/
def foldGain : Val := .rat 12
/-- `SYNC_ENV_SCALE`. -/
def syncEnvScale : Val := .rat (38 / 12)
/-- `VM_CAP`. -/
def vmCap : Nat := 128

/-- The parameters of a machine at power-on: every default of 00 R6; `HAS_VM` true so that all nine
commands exist (DESIGN CHOICE, log 3); `FREQ_INIT` the free value of Config, not below 0 (log 4). -/
def defaultParams : Params where
  hasVM := true
  lfoAB := .firstRow
  retrigHard := false
  freqInit := (Val.rat 0).max Config.freqInit
  math := .reference
  note2hz := .reference
  softClip := .reference
  shapes := .reference
  sawMorph := .reference
  varOsc := .reference
  ladder := .reference
  onePole := .reference
  envLaw := .reference
  lfoGens := .reference

end Sys2Proof.Machine
end

