-- ==== Sys2Proof/Machine/State.lean ====
section
/-! DEFINITION. The state of SMVB (10_state.md, 20_memory.md R62), the reasons a command stops (60_exceptions.md R312, R313), and the power-on state (10 R52, 70 R340). Plain data throughout. -/

namespace Sys2Proof.Machine

/-- Why a command faults. -/
inductive Fault where
  /-- raised by EVNOTEON when the held-note sequence is full (46 R288, 60 R313): the spec's own fault; safe -/
  | stackOverflow
  /-- raised by EVNOTEOFF, and by EVNOTEON with velocity 0, when the pop's scan meets no held note (46 R284):
  the spec gives it no meaning; no state that keeps 46 R286 raises it; safe (log 12) -/
  | scanFailed
  deriving DecidableEq, Repr

/-- Why a command is refused (60 R312, the closed list); every refusal is safe. -/
inductive Refusal where
  /-- raised by the command port for an illegal word, and by INIT and SETP for an operand no word carries (30 R88) -/
  | illegalWord
  /-- raised by EVNOTEON and EVNOTEOFF while `HAS_VM` is false -/
  | noVM
  /-- raised by every command but INIT while `V_INIT` is false -/
  | notInitialised
  /-- raised by UPDATE while a snapshot register is unwritten -/
  | snapshotIncomplete
  /-- raised by UPDATE for `P[3]` above 2 -/
  | badOscMode
  /-- raised by UPDATE for a reserved bit of `P[14]` -/
  | badLfoSel
  /-- raised by TICK and BLOCK while `V_UPD` is false -/
  | notUpdated
  /-- raised by an arm of `exec` that has no meaning yet; no arm is in this case; safe -/
  | notModelled (mnemonic : String)
  deriving DecidableEq, Repr

/-- `O_MODE` 0..2 (10 R33). -/
inductive Timbre where
  | pulse
  | sawPair
  | triDig
  deriving DecidableEq, Repr

/-- The oscillator's derived registers (10 R33, 43 R200, R201). -/
structure OscRegs where
  /-- `O_MODE` -/
  mode : Timbre
  /-- `O_CHAR` -/
  char : Val
  /-- `O_ENVD` -/
  envd : Val
  /-- `O_LFOD` -/
  lfod : Val
  /-- `O_BASEW` -/
  baseW : Val
  /-- `O_SYNCAMT` -/
  syncAmt : Val
  /-- `O_FOLDBASE` -/
  foldBase : Val
  deriving DecidableEq, Repr

/-- The filter's derived registers (10 R33, 42 R171). -/
structure FilterRegs where
  /-- `BASE_CUT`, Hz -/
  baseCut : Val
  /-- `RESO` -/
  reso : Val
  /-- `DRIVE` -/
  drive : Val
  /-- `C_ENVD` -/
  cEnvd : Val
  /-- `C_LFOD` -/
  cLfod : Val
  deriving DecidableEq, Repr

/-- The LFO's derived registers (10 R33, 44 R230, R231). -/
structure LfoRegs where
  /-- `L_MODE` -/
  mode : LfoMode
  /-- `L_RATEHZ` -/
  rateHz : Val
  /-- `L_PLRATIO` -/
  plRatio : Val
  /-- `L_RANDHZ` -/
  randHz : Val
  /-- `L_CNRATE` -/
  cnRate : Val
  /-- `L_GLOW` -/
  gLow : Val
  /-- `L_GHIGH` -/
  gHigh : Val
  deriving DecidableEq, Repr

/-- All derived parameter registers, written wholesale by UPDATE and by nothing else (10 R33). -/
structure Derived where
  filter : FilterRegs
  /-- `T_ATT`, `T_DEC`, `T_REL`, `SUS` -/
  env : EnvRegs
  /-- `A_MODE`, as stored, unrecognised values included -/
  aMode : Data
  osc : OscRegs
  lfo : LfoRegs
  deriving DecidableEq, Repr

/-- The state of a generator: the cells of its reference instantiation, or the state of an arbitrary
primitive in its place (10 R45, 40 R127; log 5). -/
inductive Gen (α : Type) where
  | ref (cells : α)
  | own (hidden : Hidden)
  deriving DecidableEq, Repr

/-- The stage of a reference envelope (10 R40). -/
inductive Stage where
  | idle
  | attack
  | decay
  | sustain
  | release
  deriving DecidableEq, Repr

/-- An envelope generator (10 R40): the reference law's stage and level, or an arbitrary law's state with
the fact whether it has ever seen a true gate (45 R260). -/
inductive Env where
  | ref (stage : Stage) (level : Val)
  | own (seenGate : Bool) (hidden : Hidden)
  deriving DecidableEq, Repr

/-- The phases of a reference oscillator (40 R121). -/
structure OscPhases where
  pm : Val
  ps : Val
  deriving DecidableEq, Repr

/-- The stages of a reference ladder (40 R123). -/
structure LadderCells where
  s1 : Val
  s2 : Val
  s3 : Val
  s4 : Val
  deriving DecidableEq, Repr

/-- `FILT` (10 R41): two configuration cells and the filter's state. -/
structure Filter where
  /-- `FILT.fc`, Hz, written by every TICK -/
  fc : Val
  /-- `FILT.res`, written by UPDATE -/
  res : Val
  core : Gen LadderCells
  deriving DecidableEq, Repr

/-- `OSC_P`, `OSC_S`, `OSC_T` (10 R42). -/
structure OscBank where
  p : Gen OscPhases
  s : Gen OscPhases
  t : Gen OscPhases
  deriving DecidableEq, Repr

/-- The cells of the reference sample-and-hold (40 R126). -/
structure HoldCells where
  ph : Val
  h : Val
  deriving DecidableEq, Repr

/-- The cells of the reference interpolated random generator (44 R237). -/
structure SmoothCells where
  ph : Val
  prev : Val
  next : Val
  deriving DecidableEq, Repr

/-- The one-pole cells of the colored-noise generator (44 R238, 40 R124). -/
structure ColoredCells where
  y1 : Val
  y2 : Val
  deriving DecidableEq, Repr

/-- The six private LFO generators (10 R43). -/
structure LfoBank where
  gSin : Gen Val
  gTri : Gen Val
  gPl : Gen Val
  gSh : Gen HoldCells
  gSm : Gen SmoothCells
  gCn : ColoredCells
  deriving DecidableEq, Repr

/-- The state of extension VM (10 R46). -/
structure VM where
  /-- `SEQ[0..SP-1]`, the top last; its length is `SP` (log 11) -/
  seq : List Note
  /-- `HELD[0..127]` -/
  held : Vector Bool 128
  /-- `HCNT` -/
  hcnt : Nat
  /-- `CUR` -/
  cur : Option Note
  /-- `LASTVEL` -/
  lastVel : Velocity
  deriving DecidableEq, Repr

/-- The three noise draws of one TICK (40 R125). -/
structure Draw where
  sh : Val
  sm : Val
  cn : Val
  deriving DecidableEq, Repr

/-- The state of SMVB. -/
structure State where
  /-- the model's own: the OPEN parameters that are data; no command writes them (log 3) -/
  params : Params
  /-- `V_INIT` (R23) -/
  vInit : Bool
  /-- `V_UPD` (R23) -/
  vUpd : Bool
  /-- `PW[0..14]` (R23) -/
  pw : Vector Bool 15
  /-- `SR`, Hz (R24) -/
  sr : Val
  /-- `FREQ`, Hz (R24) -/
  freq : Val
  /-- `GATE` (R24, R25) -/
  gate : Bool
  /-- `P[0..14]` (R30) -/
  snap : Vector Data 15
  /-- the derived parameter registers (R33) -/
  derived : Derived
  /-- `ENV1`, the amplitude envelope (R40) -/
  env1 : Env
  /-- `ENV2`, the release-only envelope (R40) -/
  env2 : Env
  /-- `FILT` (R41) -/
  filt : Filter
  /-- `OSC_P`, `OSC_S`, `OSC_T` (R42) -/
  osc : OscBank
  /-- `G_SIN`, `G_TRI`, `G_PL`, `G_SH`, `G_SM`, `G_CN` (R43) -/
  lfo : LfoBank
  /-- `OUT` (R44) -/
  out : Val
  /-- `OUTS`, the output stream since INIT, frame 0 first (20 R62) -/
  outs : List (Val × Val)
  /-- the held-note stack (R46) -/
  vm : VM
  /-- the refusal mark of the run (60 R312; log 10) -/
  refusalMark : Option Refusal
  /-- the sticky fault mark of the run (60 R313; log 10) -/
  faultMark : Option Fault
  /-- the model's own: the command words the host is still to present, next one first (log 9) -/
  port : List Word
  /-- the model's own: noise draws supplied with the run, next TICK's first (40 R125; log 6) -/
  draws : List Draw
  /-- the model's own: the index of the free noise values (log 6) -/
  drawIx : Nat
  deriving DecidableEq, Repr

/-- `SP` (10 R46): the number of entries in the sequence. -/
def State.sp (s : State) : Nat := s.vm.seq.length

/-- What stands in the derived registers while they hold no value (10 R33): a placeholder no command reads,
since `V_UPD` is false. DESIGN CHOICE (log 7). -/
def Derived.noValue : Derived where
  filter := ⟨.rat 0, .rat 0, .rat 0, .rat 0, .rat 0⟩
  env := ⟨.rat 0, .rat 0, .rat 0, .rat 0⟩
  aMode := 0#32
  osc := ⟨.pulse, .rat 0, .rat 0, .rat 0, .rat 0, .rat 0, .rat 0⟩
  lfo := ⟨.sine, .rat 0, .rat 0, .rat 0, .rat 0, .rat 0, .rat 0⟩

/-- The empty stack of extension VM (10 R46, the column "after INIT"). -/
def VM.empty : VM := ⟨[], Vector.replicate 128 false, 0, none, 0#7⟩

/-- The six reference LFO generators with every cell 0 (10 R43). -/
def LfoBank.zero : LfoBank := 
  ⟨.ref (.rat 0), .ref (.rat 0), .ref (.rat 0), .ref ⟨.rat 0, .rat 0⟩, .ref ⟨.rat 0, .rat 0, .rat 0⟩, ⟨.rat 0, .rat 0⟩⟩

/-- The power-on state: `V_INIT` false, the stream empty, and no other cell holds a value (10 R52, 70 R340).
The cells without a value hold the placeholders of log 7, which no command can read. -/
def State.reset : State where
  params := defaultParams
  vInit := false
  vUpd := false
  pw := Vector.replicate 15 false
  sr := .rat 0
  freq := .rat 0
  gate := false
  snap := Vector.replicate 15 0#32
  derived := Derived.noValue
  env1 := .ref .idle (.rat 0)
  env2 := .ref .idle (.rat 0)
  filt := ⟨.rat 0, .rat 0, .ref ⟨.rat 0, .rat 0, .rat 0, .rat 0⟩⟩
  osc := ⟨.ref ⟨.rat 0, .rat 0⟩, .ref ⟨.rat 0, .rat 0⟩, .ref ⟨.rat 0, .rat 0⟩⟩
  lfo := LfoBank.zero
  out := .rat 0
  outs := []
  vm := VM.empty
  refusalMark := none
  faultMark := none
  port := []
  draws := []
  drawIx := 0

end Sys2Proof.Machine
end

