-- ==== Sys2Proof/Machine/Flags.lean ====
section
/-! DEFINITION. The one-bit flags: `V_INIT`, `V_UPD`, `PW[i]`, `GATE` (10_state.md R23, R25). There are no condition codes and no arithmetic flags. -/

namespace Sys2Proof.Machine

/-- `PW[0..14]` all false. -/
def noneWritten : Vector Bool 15 := Vector.replicate 15 false

/-- `PW[idx] <- true`. -/
def markWritten (pw : Vector Bool 15) (idx : BitVec 8) : Vector Bool 15 := pw.setIfInBounds idx.toNat true

/-- `∀ i ∈ 0..14, PW[i]`. -/
def allWritten (pw : Vector Bool 15) : Bool := pw.all id

/-- `GATE <- g`. -/
def State.setGate (s : State) (g : Bool) : State := { s with gate := g }

end Sys2Proof.Machine
end

