-- ==== Sys2Proof/Machine/Math.lean ====
section
/-! DEFINITION. The transcendental functions (40_primitives.md R111) and the stateless helpers (R113 to R118). -/

namespace Sys2Proof.Machine

/-! ### Transcendental functions (R111)

Each is the free function of Config; the tests before it only spell out values its contract already
forces, so that a run can be evaluated there (log 2). -/

/-- The functions in force: the ideal ones or an implementation's. -/
def mathFns : Prim → MathFns Config.num.nums.real
  | .reference => Config.num.ideal.toMathFns
  | .own => Config.num.own

/-- `EXP2`. -/
def exp2 (p : Prim) (x : Val) : Val :=
  match x with
  | .rat q =>
    if q = 0 then .rat 1
    else if p = .reference ∧ q.den = 1 then .rat (2 ^ q.num)
    else (mathFns p).exp2 x
  | .named _ => (mathFns p).exp2 x

/-- `POW(b, e)`, b ≥ 0. -/
def pow (p : Prim) (b e : Val) : Val :=
  match b, e with
  | .rat c, .rat q =>
    if c = 1 then .rat 1
    else if 0 < c ∧ q = 0 then .rat 1
    else if 0 ≤ c ∧ q = 1 then .rat c
    else if c = 0 ∧ 0 < q then .rat 0
    else if p = .reference ∧ c = 10000 ∧ (4 * q).den = 1 then .rat (10 ^ (4 * q).num)
    else (mathFns p).pow b e
  | _, _ => (mathFns p).pow b e

/-- `EXP`. -/
def exp (p : Prim) (x : Val) : Val := (mathFns p).exp x

/-- `SINT(t) = sin(2πt)`. -/
def sint (p : Prim) (t : Val) : Val :=
  match t with
  | .rat q =>
    if p = .reference ∧ Int.fract q = 0 then .rat 0
    else if p = .reference ∧ Int.fract q = 1 / 4 then .rat 1
    else if p = .reference ∧ Int.fract q = 1 / 2 then .rat 0
    else if p = .reference ∧ Int.fract q = 3 / 4 then .rat (-1)
    else (mathFns p).sint t
  | .named _ => (mathFns p).sint t

/-- `PI`. -/
def pi (p : Prim) : Val := (mathFns p).pi

/-! ### Stateless helpers -/

/-- `expmap(k, lo, hi) = lo · POW(hi/lo, k)` (R113). -/
def expmap (p : Prim) (k lo hi : Val) : Val := lo.mul (pow p (hi.div lo) k)

/-- `adsrTime(k, tMin, tMax, c) = tMin · POW(tMax/tMin, POW(k, c))` (R114). -/
def adsrTime (p : Prim) (k tMin tMax c : Val) : Val := tMin.mul (pow p (tMax.div tMin) (pow p k c))

/-- `SOFTCLIP(u)`, default `u·(27 + u²)/(27 + 9u²)` (R115). -/
def limiter (p : Prim) (u : Val) : Val :=
  match p with
  | .reference => (u.mul ((Val.rat 27).add u.sq)).div ((Val.rat 27).add ((Val.rat 9).mul u.sq))
  | .own => Config.num.limiter.f u

/-- `softClip(x) = SOFTCLIP(clamp(x, −3, 3))` (R115). -/
def softClip (p : Prim) (x : Val) : Val := limiter p (x.clamp (.rat (-3)) (.rat 3))

/-- `tri4(u) = 1 − |((u + 1) mod 4) − 2|` (R116). -/
def tri4 (u : Val) : Val := (Val.rat 1).sub (((u.add (.rat 1)).mod (.rat 4)).sub (.rat 2)).abs

/-- `fold(s, a) = tri4(s · (1 + 12·a))` (R116). -/
def fold (s a : Val) : Val := tri4 (s.mul ((Val.rat 1).add (foldGain.mul a)))

/-- `SHAPE0`, the identity (R117). -/
def shape0 (s : Val) : Val := s

/-- The reference `SHAPE1`, cubic soft clip `1.5·c − 0.5·c³` of the clamped sample (R117). -/
def cubicClip (s : Val) : Val :=
  let c := s.clamp (.rat (-1)) (.rat 1)
  ((Val.rat (3 / 2)).mul c).sub ((Val.rat (1 / 2)).mul (c.mul c.sq))

/-- `SHAPE1` (R117). -/
def shape1 (p : Prim) (s : Val) : Val :=
  match p with
  | .reference => cubicClip s
  | .own => Config.shape1 s

/-- `SHAPE2`, reference the one-over saturator (R117). -/
def shape2 (p : Prim) (s : Val) : Val :=
  match p with
  | .reference => s.div ((Val.rat 1).add s.abs)
  | .own => Config.shape2 s

/-- `SHAPE3`, reference the asymmetric bend (R117). -/
def shape3 (p : Prim) (s : Val) : Val :=
  match p with
  | .reference => if (Val.rat 0).le s then cubicClip s else s
  | .own => Config.shape3 s

/-- The linear cross-fade `(1 − t)·a + t·b`. -/
def crossFade (t a b : Val) : Val := (((Val.rat 1).sub t).mul a).add (t.mul b)

/-- `shapeBlend(s, h)`: `p = 3h`, `i = min(⌊p⌋, 2)`, `t = p − i`, `(1 − t)·SHAPE_i + t·SHAPE_{i+1}` (R117). -/
def shapeBlend (p : Prim) (s h : Val) : Val :=
  let q := (Val.rat 3).mul h
  let i := min q.floor 2
  let t := q.sub (.rat i)
  if i ≤ 0 then crossFade t (shape0 s) (shape1 p s)
  else if i = 1 then crossFade t (shape1 p s) (shape2 p s)
  else crossFade t (shape2 p s) (shape3 p s)

/-- `SAW_MORPH_PW`, a map into [0, 1], reference `1 − m/2` (R118). -/
def sawMorphPw (p : Prim) (m : Val) : Val :=
  match p with
  | .reference => (Val.rat 1).sub (m.div (.rat 2))
  | .own => (Config.sawMorphPw m).clamp (.rat 0) (.rat 1)

end Sys2Proof.Machine
end

