-- ==== Sys2Proof/Machine/Operands.lean ====
section
/-! DEFINITION. Operand readings: Q16.16, unsigned, and the named snapshot registers (00_scope.md R9, 10_state.md R30, R31, 30_encoding.md R85, R86). -/

namespace Sys2Proof.Machine

/-- `q16(w) = sext(w) / 65536` (R9, R85). -/
def q16 (w : Data) : Val := .rat ((w.toInt : ℚ) / 65536)

/-- `u32(w)` (R9). -/
def u32 (w : Data) : Nat := w.toNat

/-- The snapshot registers by name (10 R30). -/
inductive SnapReg where
  | oscChar | oscEnvd | oscLfod | oscMode | cutoff | res | cutEnvd | cutLfod
  | attack | decay | sustain | release | ampMode | lfoRate | lfoSel
  deriving DecidableEq, Repr

/-- The index of a snapshot register (10 R30). -/
def snapIndex : SnapReg → Fin 15
  | .oscChar => 0
  | .oscEnvd => 1
  | .oscLfod => 2
  | .oscMode => 3
  | .cutoff => 4
  | .res => 5
  | .cutEnvd => 6
  | .cutLfod => 7
  | .attack => 8
  | .decay => 9
  | .sustain => 10
  | .release => 11
  | .ampMode => 12
  | .lfoRate => 13
  | .lfoSel => 14

/-- The word of a snapshot register. -/
def snapWord (snap : Vector Data 15) (r : SnapReg) : Data := snap[snapIndex r]

/-- A real-valued snapshot register (reading q16). -/
def snapReal (snap : Vector Data 15) (r : SnapReg) : Val := q16 (snapWord snap r)

/-- `P[14]` bit 0, the boolean S (10 R31). -/
def selSignal (w : Data) : Bool := w.getLsbD 0
/-- `P[14]` bit 1, the boolean A. -/
def selA (w : Data) : Bool := w.getLsbD 1
/-- `P[14]` bit 2, the boolean B. -/
def selB (w : Data) : Bool := w.getLsbD 2
/-- `P[14]` bits 31:3, which must be zero (10 R31). -/
def selReserved (w : Data) : BitVec 29 := w.extractLsb' 3 29

/-- The timbre mode of a mode number; UPDATE refuses numbers above 2 before it is used (43 R200). -/
def timbreOf (w : Data) : Timbre :=
  if u32 w = 0 then .pulse else if u32 w = 1 then .sawPair else .triDig

end Sys2Proof.Machine
end

