-- ==== Sys2Proof/Machine/Ops.lean ====
section
/-! DEFINITION. The shared operations over the state: the outcome of a command and the marks of a run (60_exceptions.md R312, R313), the snapshot and the output stream (20_memory.md R61, R62), the noise draws (40_primitives.md R125), and the note-to-frequency map (41_lifecycle.md R155). SMVB has no exception entry and no return (60 R317): an abnormal outcome is a mark. -/

namespace Sys2Proof.Machine

/-- The outcome of a command. -/
abbrev Result := Host.Outcome State Fault Refusal

/-- `require c`: if `c` fails the command is refused with no change of state (00 R10). -/
def require (c : Bool) (r : Refusal) (k : Result) : Result := if c then k else .refused r

/-! ### The marks of a run (log 10) -/

/-- The state of a run after a command that had outcome `o` in `s`: a completed command's own state; a
refused or faulted command changes nothing but its mark, which keeps the first reason (60 R312, R313). -/
def settle (s : State) (o : Result) : State :=
  match o with
  | .next t => t
  | .fault r => { s with faultMark := s.faultMark <|> some r }
  | .refused r => { s with refusalMark := s.refusalMark <|> some r }

/-! ### The snapshot and the stream -/

/-- `P[idx] <- data ; PW[idx] <- true` (41 R151). -/
def State.writeSnap (s : State) (idx : BitVec 8) (data : Data) : State :=
  { s with snap := s.snap.setIfInBounds idx.toNat data, pw := markWritten s.pw idx }

/-- `OUT <- v ; emit(v, v)` (42 R183). -/
def State.emit (s : State) (v : Val) : State := { s with out := v, outs := s.outs ++ [(v, v)] }

/-- The stream as a converter gets it, in the open format `OUT_FMT` (20 R62, log 14). -/
def outBytes (s : State) : List (BitVec 8) := s.outs.flatMap Config.outFmt

/-! ### Noise (40 R125): three free inputs of a TICK, each in [-1, 1] (log 6) -/

/-- The draws of the next TICK before they are limited: those supplied with the run, else free values. -/
def rawDraw (s : State) : Draw :=
  match s.draws with
  | d :: _ => d
  | [] => ⟨Config.noise .sh s.drawIx, Config.noise .sm s.drawIx, Config.noise .cn s.drawIx⟩

/-- `draw ν_sh, ν_sm, ν_cn ∈ [−1, 1]`. -/
def nextDraw (s : State) : Draw :=
  ⟨(rawDraw s).sh.clamp (.rat (-1)) (.rat 1), (rawDraw s).sm.clamp (.rat (-1)) (.rat 1),
    (rawDraw s).cn.clamp (.rat (-1)) (.rat 1)⟩

/-! ### Notes -/

/-- `NOTE2HZ`, a frequency ≥ 0, default `440 · EXP2((n − 69)/12)` (41 R155). -/
def note2hz (p : Params) (n : Note) : Val :=
  match p.note2hz with
  | .reference => (Val.rat 0).max ((Val.rat 440).mul (exp2 p.math (.rat (((n.toNat : ℚ) - 69) / 12))))
  | .own => (Val.rat 0).max (Config.note2hz n)

end Sys2Proof.Machine
end

