-- ==== Sys2Proof/Machine/Envelope.lean ====
section
/-! DEFINITION. The envelope-generator pair (45_envelopes.md): ENV1 the amplitude envelope, ENV2 the release-only one, each as the reference law and as an arbitrary one that keeps the contract of R260. -/

namespace Sys2Proof.Machine

/-- Both envelopes after INIT: Idle at level 0 (10 R40); an arbitrary law's own initial state. -/
def envInit (p : Prim) (sr : Val) : Env :=
  match p with
  | .reference => .ref .idle (.rat 0)
  | .own => .own false (Config.envInit sr)

/-- The stage change at the start of a step: an open gate leaves Idle and Release for Attack, a closed
gate leaves Attack, Decay and Sustain for Release (R261). -/
def gateStage (g : Bool) (stage : Stage) : Stage :=
  match stage with
  | .idle => if g then .attack else .idle
  | .release => if g then .attack else .release
  | .attack => if g then .attack else .release
  | .decay => if g then .decay else .release
  | .sustain => if g then .sustain else .release

/-- The level moved along one stage, and the stage that follows (R261). -/
def envSegment (sr : Val) (e : EnvRegs) (stage : Stage) (level : Val) : Stage × Val :=
  match stage with
  | .idle => (.idle, .rat 0)
  | .attack =>
    let l := (Val.rat 1).min (level.add ((Val.rat 1).div (e.tAtt.mul sr)))
    (if l.same (.rat 1) then .decay else .attack, l)
  | .decay =>
    let l := level.sub (((Val.rat 1).sub e.sus).div (e.tDec.mul sr))
    if l.le e.sus then (.sustain, e.sus) else (.decay, l)
  | .sustain => (.sustain, e.sus)
  | .release =>
    let l := (Val.rat 0).max (level.sub ((Val.rat 1).div (e.tRel.mul sr)))
    (if l.same (.rat 0) then .idle else .release, l)

/-- The output of an arbitrary law: in [0, 1], and 0 while the generator has never seen a true gate (R260). -/
def ownEnvOutput (seenGate : Bool) (v : Val) : Val := if seenGate then v.clamp (.rat 0) (.rat 1) else .rat 0

/-- `ENV1.step(g)` (R261, R262): the new state and the output. -/
def env1Step (sr : Val) (e : EnvRegs) (g : Bool) (st : Env) : Env × Val :=
  match st with
  | .ref stage level =>
    let r := envSegment sr e (gateStage g stage) level
    (.ref r.1 r.2, r.2)
  | .own seen h =>
    (.own (seen || g) (Config.envStep sr e h g).1, ownEnvOutput (seen || g) (Config.envStep sr e h g).2)

/-- `ENV1.retrigger()` (R263): a new attack, from the current level unless `RETRIG_HARD`. -/
def env1Retrigger (hard : Bool) (st : Env) : Env :=
  match st with
  | .ref _ level => .ref .attack (if hard then .rat 0 else level)
  | .own seen h => .own seen (Config.envRetrigger h)

/-- The reference `ENV2.step(g)` (R265): full level while the gate is true, the release segment when it is false. -/
def env2Segment (sr tRel : Val) (g : Bool) (level : Val) : Stage × Val :=
  if g then (.sustain, .rat 1)
  else
    let l := (Val.rat 0).max (level.sub ((Val.rat 1).div (tRel.mul sr)))
    (if l.same (.rat 0) then .idle else .release, l)

/-- `ENV2.step(g)` (R265, R262: it reads `T_REL` and `SR`). -/
def env2Step (sr tRel : Val) (g : Bool) (st : Env) : Env × Val :=
  match st with
  | .ref _ level =>
    let r := env2Segment sr tRel g level
    (.ref r.1 r.2, r.2)
  | .own seen h =>
    (.own (seen || g) (Config.env2Step sr tRel h g).1, ownEnvOutput (seen || g) (Config.env2Step sr tRel h g).2)

end Sys2Proof.Machine
end

