-- ==== Sys2Proof/Machine/Primitives.lean ====
section
/-! DEFINITION. The opaque primitives (40_primitives.md R120 to R126), each as its reference instantiation and as an arbitrary one with the same interface. -/

namespace Sys2Proof.Machine

/-! ### VAROSC (R120, R121) -/

/-- `waveOut(SawMorph, pw, p)`: `−1 + 2p/pw` for p < pw, else `1 − 2(p − pw)/(1 − pw)` (R121). -/
def sawWave (pw p : Val) : Val :=
  if p.lt pw then (Val.rat (-1)).add (((Val.rat 2).mul p).div pw)
  else (Val.rat 1).sub (((Val.rat 2).mul (p.sub pw)).div ((Val.rat 1).sub pw))

/-- `waveOut(wave, pw, p)` (R121). -/
def waveOut (w : Wave) (pw p : Val) : Val :=
  match w with
  | .square => if p.lt pw then .rat 1 else .rat (-1)
  | .sawMorph => sawWave pw p
  | .triangle => sawWave (.rat (1 / 2)) p

/-- The phases after one tick of the reference oscillator (R121). -/
def advancePhases (sr : Val) (c : OscPhases) (x : OscIn) : OscPhases :=
  let m := c.pm.add (x.f.div sr)
  { pm := m.frac
    ps := if x.syncOn then
            if (Val.rat 1).le m then ((m.frac.mul x.fs).div x.f).frac else (c.ps.add (x.fs.div sr)).frac
          else m.frac }

/-- `VAROSC.init(SR)`. -/
def oscInit (p : Prim) (sr : Val) : Gen OscPhases :=
  match p with
  | .reference => .ref ⟨.rat 0, .rat 0⟩
  | .own => .own (Config.oscInit sr)

/-- `VAROSC.step`: the new state and one sample, which the reference takes before its phases advance. -/
def oscStep (sr : Val) (st : Gen OscPhases) (x : OscIn) : Gen OscPhases × Val :=
  match st with
  | .ref c => (.ref (advancePhases sr c x), waveOut x.wave x.pw c.ps)
  | .own h => (.own (Config.oscStep sr h x).1, (Config.oscStep sr h x).2)

/-! ### LADDER (R122, R123) -/

/-- `LADDER.init(SR)`; `fc` and `res` hold no value until a TICK and an UPDATE write them (log 7). -/
def ladderInit (p : Prim) (sr : Val) : Filter :=
  ⟨.rat 0, .rat 0, match p with
    | .reference => .ref ⟨.rat 0, .rat 0, .rat 0, .rat 0⟩
    | .own => .own (Config.ladderInit sr)⟩

/-- `LADDER.setFreq(st, fc)`. -/
def Filter.setFreq (f : Filter) (fc : Val) : Filter := { f with fc := fc }

/-- `LADDER.setRes(st, r)`. -/
def Filter.setRes (f : Filter) (r : Val) : Filter := { f with res := r }

/-- The coefficient of a one-pole stage at corner `fc`: `1 − EXP(−2·PI·fc/SR)` (R123, R124). -/
def poleCoeff (m : Prim) (sr fc : Val) : Val := (Val.rat 1).sub (exp m ((((Val.rat (-2)).mul (pi m)).mul fc).div sr))

/-- The four cascaded stages of the reference ladder, coefficient `g`, resonance `res` (R123). -/
def ladderCells (g res x : Val) (c : LadderCells) : LadderCells :=
  let u := x.sub (((Val.rat 4).mul res).mul c.s4)
  let s1 := c.s1.add (g.mul (u.sub c.s1))
  let s2 := c.s2.add (g.mul (s1.sub c.s2))
  let s3 := c.s3.add (g.mul (s2.sub c.s3))
  let s4 := c.s4.add (g.mul (s3.sub c.s4))
  ⟨s1, s2, s3, s4⟩

/-- `LADDER.process(st, x)`: the new state and one output sample. -/
def ladderProcess (m : Prim) (sr : Val) (f : Filter) (x : Val) : Filter × Val :=
  match f.core with
  | .ref c =>
    let c' := ladderCells (poleCoeff m sr f.fc) f.res x c
    ({ f with core := .ref c' }, c'.s4)
  | .own h =>
    ({ f with core := .own (Config.ladderProcess sr f.fc f.res h x).1 }, (Config.ladderProcess sr f.fc f.res h x).2)

/-! ### ONEPOLE (R124) -/

/-- `lp(y, x)`, the new `y`, which is also the output; reference `y + a·(x − y)` at 200 Hz. -/
def onePole (p m : Prim) (sr y x : Val) : Val :=
  match p with
  | .reference => y.add ((poleCoeff m sr cnFc).mul (x.sub y))
  | .own => Config.onePole sr y x

/-! ### Clocked sample-and-hold (R126) -/

/-- One step of the reference sample-and-hold: the clock phase, and a new value when it wraps. -/
def holdStep (sr rate ν : Val) (c : HoldCells) : HoldCells :=
  let ph := c.ph.add (rate.div sr)
  if (Val.rat 1).le ph then ⟨ph.frac, ν⟩ else ⟨ph, c.h⟩

end Sys2Proof.Machine
end

