-- ==== Sys2Proof/Machine/Lfo.lean ====
section
/-! DEFINITION. The Modulation Source (44_lfo.md): mode selection and rate laws (UPDATE.lfo), and the six free-running generators (LFO.step). -/

namespace Sys2Proof.Machine

/-! ### Control rate -/

/-- The mode of the three booleans (R230), under the reading `LFO_AB` of the two combinations with A and B both set. -/
def lfoModeOf (ab : LfoAB) (s a b : Bool) : LfoMode :=
  if a && b && (ab == .catchAll) then .smoothed
  else if s then (if a then .sine else if b then .pitchLocked else .triangle)
  else (if a then .stepped else if b then .colored else .smoothed)

/-- `UPDATE.lfo` (R230, R231). -/
def deriveLfo (p : Params) (snap : Vector Data 15) : LfoRegs :=
  let sel := snapWord snap .lfoSel
  let k := (snapReal snap .lfoRate).clamp (.rat 0) (.rat 1)
  let c := ((Val.rat 2).mul k).sub (.rat 1)
  let r := c.mul c.sq
  { mode := lfoModeOf p.lfoAB (selSignal sel) (selA sel) (selB sel)
    rateHz := expmap p.math k lfoFmin lfoFmax
    plRatio := expmap p.math k plRmin plRmax
    randHz := expmap p.math k.sq rndFmin rndFmax
    cnRate := r
    gLow := (Val.rat 0).max ((Val.rat 1).sub r)
    gHigh := (Val.rat 0).max ((Val.rat 1).add ((Val.rat (1 / 2)).mul r)) }

/-! ### Audio rate -/

/-- The generators after INIT: every cell 0 (10 R43); arbitrary generators in their own initial state. -/
def lfoInit (p : Prim) (sr : Val) : LfoBank :=
  match p with
  | .reference => LfoBank.zero
  | .own =>
    ⟨.own (Config.lfoInit .sine sr), .own (Config.lfoInit .triangle sr), .own (Config.lfoInit .pitchLocked sr),
      .own (Config.lfoInit .stepped sr), .own (Config.lfoInit .smoothed sr), ⟨.rat 0, .rat 0⟩⟩

/-- A step of an arbitrary generator put in place of a reference one (D30). -/
def ownLfoStep {α : Type} (mode : LfoMode) (sr rate ν : Val) (h : Hidden) : Gen α × Val :=
  (.own (Config.lfoStep mode sr rate ν h).1, (Config.lfoStep mode sr rate ν h).2)

/-- A phase accumulator, advanced by `rate/SR` (R233 to R235). -/
def advancePhase (sr rate ph : Val) : Val := (ph.add (rate.div sr)).frac

/-- `G_SIN.step()` at `L_RATEHZ` (R233): the sample is taken before the phase advances. -/
def sinStep (m : Prim) (sr rate : Val) (g : Gen Val) : Gen Val × Val :=
  match g with
  | .ref ph => (.ref (advancePhase sr rate ph), sint m ph)
  | .own h => ownLfoStep .sine sr rate (.rat 0) h

/-- `G_TRI.step()` at `L_RATEHZ` (R234). -/
def triStep (sr rate : Val) (g : Gen Val) : Gen Val × Val :=
  match g with
  | .ref ph => (.ref (advancePhase sr rate ph), tri4 ((Val.rat 4).mul ph))
  | .own h => ownLfoStep .triangle sr rate (.rat 0) h

/-- The pitch-locked frequency `min(nf · L_PLRATIO, 20000)`, recomputed at every tick (R235). -/
def pitchLockedHz (nf ratio : Val) : Val := (nf.mul ratio).min plFmax

/-- `G_PL.step(nf)` (R235). -/
def plStep (m : Prim) (sr ratio nf : Val) (g : Gen Val) : Gen Val × Val :=
  match g with
  | .ref ph => (.ref (advancePhase sr (pitchLockedHz nf ratio) ph), sint m ph)
  | .own h => ownLfoStep .pitchLocked sr (pitchLockedHz nf ratio) (.rat 0) h

/-- `G_SH.step(ν)` clocked at `L_RANDHZ` (R236): the held value. -/
def shStep (sr rate ν : Val) (g : Gen HoldCells) : Gen HoldCells × Val :=
  match g with
  | .ref c => (.ref (holdStep sr rate ν c), (holdStep sr rate ν c).h)
  | .own h => ownLfoStep .stepped sr rate ν h

/-- The cells of the interpolated random generator after one tick (R237). -/
def smoothCells (sr rate ν : Val) (c : SmoothCells) : SmoothCells :=
  let ph := c.ph.add (rate.div sr)
  if (Val.rat 1).le ph then ⟨ph.frac, c.next, ν⟩ else ⟨ph, c.prev, c.next⟩

/-- `G_SM.step(ν)` clocked at `L_RANDHZ` (R237): linear interpolation between successive draws. -/
def smStep (sr rate ν : Val) (g : Gen SmoothCells) : Gen SmoothCells × Val :=
  match g with
  | .ref c =>
    let c' := smoothCells sr rate ν c
    (.ref c', c'.prev.add ((c'.next.sub c'.prev).mul c'.ph))
  | .own h => ownLfoStep .smoothed sr rate ν h

/-- `G_CN.step(ν)` (R238): `0.5·(L_GLOW·lp2(lp1(ν)) + L_GHIGH·(ν − lp1(ν)))`. -/
def cnStep (p m : Prim) (sr gLow gHigh ν : Val) (c : ColoredCells) : ColoredCells × Val :=
  let y1 := onePole p m sr c.y1 ν
  let y2 := onePole p m sr c.y2 y1
  (⟨y1, y2⟩, (Val.rat (1 / 2)).mul ((gLow.mul y2).add (gHigh.mul (ν.sub y1))))

/-- `LFO.step(nf; ν_sh, ν_sm, ν_cn)` (R232): all six generators advance, the output is that of `L_MODE`. -/
def lfoStep (p : Params) (sr : Val) (r : LfoRegs) (nf : Val) (ν : Draw) (b : LfoBank) : LfoBank × Val :=
  let o0 := sinStep p.math sr r.rateHz b.gSin
  let o1 := triStep sr r.rateHz b.gTri
  let o2 := plStep p.math sr r.plRatio nf b.gPl
  let o3 := shStep sr r.randHz ν.sh b.gSh
  let o4 := smStep sr r.randHz ν.sm b.gSm
  let o5 := cnStep p.onePole p.math sr r.gLow r.gHigh ν.cn b.gCn
  (⟨o0.1, o1.1, o2.1, o3.1, o4.1, o5.1⟩,
    match r.mode with
    | .sine => o0.2
    | .triangle => o1.2
    | .pitchLocked => o2.2
    | .stepped => o3.2
    | .smoothed => o4.2
    | .colored => o5.2)

end Sys2Proof.Machine
end

