-- ==== Sys2Proof/Machine/Oscillator.lean ====
section
/-! DEFINITION. The Oscillator Engine (43_oscillator.md): UPDATE.osc and OSC.process with its three timbre modes. -/

namespace Sys2Proof.Machine

/-! ### Control rate -/

/-- `UPDATE.osc` (R200, R201). -/
def deriveOsc (snap : Vector Data 15) : OscRegs :=
  let c := (snapReal snap .oscChar).clamp (.rat (-1)) (.rat 1)
  { mode := timbreOf (snapWord snap .oscMode)
    char := c
    envd := (snapReal snap .oscEnvd).clamp (.rat (-1)) (.rat 1)
    lfod := (snapReal snap .oscLfod).clamp (.rat (-1)) (.rat 1)
    baseW := (c.add (.rat 1)).div (.rat 2)
    syncAmt := c.max (.rat 0)
    foldBase := c.neg.max (.rat 0) }

/-! ### Audio rate -/

/-- `VAROSC.init(SR)` for each of the three oscillators (10 R42). -/
def oscBankInit (p : Prim) (sr : Val) : OscBank := ⟨oscInit p sr, oscInit p sr, oscInit p sr⟩

/-- The pulse width of mode 0 (R203). -/
def pulseWidth (r : OscRegs) (env lfo : Val) : Val := ((r.baseW.add (env.mul r.envd)).add (lfo.mul r.lfod)).clamp (.rat 0) (.rat 1)

/-- Mode 0, Square/pulse (R203). -/
def pulse (sr : Val) (r : OscRegs) (f env lfo : Val) (st : Gen OscPhases) : Gen OscPhases × Val :=
  oscStep sr st ⟨f, .square, pulseWidth r env lfo, false, f⟩

/-- The position `x` of mode 1 (R204). -/
def sawPosition (r : OscRegs) (env lfo : Val) : Val := (r.char.add (env.mul r.envd)).add (lfo.mul r.lfod)

/-- `harmonics` (R204). -/
def harmonics (x : Val) : Val := (x.max (.rat 0)).clamp (.rat 0) (.rat 1)

/-- `timbre`, also the morph amount (R204). -/
def timbreAmt (x : Val) : Val := x.abs.clamp (.rat 0) (.rat 1)

/-- Mode 1, Saw-pair (R204): oscillator, waveshape blend, wavefold. -/
def sawPair (p : Params) (sr : Val) (r : OscRegs) (f env lfo : Val) (st : Gen OscPhases) : Gen OscPhases × Val :=
  let x := sawPosition r env lfo
  let o := oscStep sr st ⟨f, .sawMorph, sawMorphPw p.sawMorph (timbreAmt x), false, f⟩
  (o.1, fold (shapeBlend p.shapes o.2 (harmonics x)) (timbreAmt x))

/-- The sync exponent `e`, in octaves (R206). -/
def syncExponent (r : OscRegs) (env lfo : Val) : Val :=
  let env5 := (((env.mul r.envd).mul octRange).mul syncEnvScale)
  (((r.syncAmt.mul octRange).add env5).add ((lfo.mul r.lfod).mul octRange)).clamp (.rat 0) (.rat 5)

/-- The sync ratio `EXP2(e)` (R206). -/
def syncRatio (m : Prim) (r : OscRegs) (env lfo : Val) : Val := exp2 m (syncExponent r env lfo)

/-- The fold amount of mode 2 with negative character (R207). -/
def foldAmount (r : OscRegs) (env lfo : Val) : Val := ((r.foldBase.add (env.mul r.envd)).add (lfo.mul r.lfod)).clamp (.rat 0) (.rat 1)

/-- Mode 2, Triangle/digital-pair (R205 to R208): plain self-sync at character 0, hard sync above, wavefold below. -/
def triDig (m : Prim) (sr : Val) (r : OscRegs) (f env lfo : Val) (st : Gen OscPhases) : Gen OscPhases × Val :=
  if r.char.same (.rat 0) then oscStep sr st ⟨f, .triangle, .rat (1 / 2), true, f⟩
  else if (Val.rat 0).lt r.char then
    oscStep sr st ⟨f, .triangle, .rat (1 / 2), true, f.mul (syncRatio m r env lfo)⟩
  else
    let o := oscStep sr st ⟨f, .triangle, .rat (1 / 2), true, f⟩
    (o.1, fold o.2 (foldAmount r env lfo))

/-- `OSC.process(f, env, lfo)` (R202): only the oscillator of the selected mode advances. -/
def oscProcess (p : Params) (sr : Val) (r : OscRegs) (f env lfo : Val) (b : OscBank) : OscBank × Val :=
  match r.mode with
  | .pulse =>
    let o := pulse sr r f env lfo b.p
    ({ b with p := o.1 }, o.2)
  | .sawPair =>
    let o := sawPair p sr r f env lfo b.s
    ({ b with s := o.1 }, o.2)
  | .triDig =>
    let o := triDig p.math sr r f env lfo b.t
    ({ b with t := o.1 }, o.2)

end Sys2Proof.Machine
end

