-- ==== Sys2Proof/Machine/Lifecycle.lean ====
section
/-! DEFINITION. INIT, SETP, NOTEON, NOTEOFF (41_lifecycle.md). -/

namespace Sys2Proof.Machine

/-- What INIT writes (R150, 70 R340), the whole state: the stack of extension VM only with `HAS_VM`. The snapshot
and derived registers hold no value afterwards (log 8); parameters, marks and the host's side are kept. -/
def State.init (s : State) (sr : Val) : State :=
  { s with
    sr := sr
    freq := s.params.freqInit
    gate := false
    vInit := true
    vUpd := false
    pw := noneWritten
    snap := Vector.replicate 15 0#32
    derived := Derived.noValue
    env1 := envInit s.params.envLaw sr
    env2 := envInit s.params.envLaw sr
    filt := ladderInit s.params.ladder sr
    osc := oscBankInit s.params.varOsc sr
    lfo := lfoInit s.params.lfoGens sr
    out := .rat 0
    outs := []
    vm := if s.params.hasVM then VM.empty else s.vm }

/-- `INIT sr` (R150): accepted in every state; a sample rate 0 is no legal word (30 R88). -/
def execInit (sr : Data) (s : State) : Result :=
  require (decide (1 ≤ u32 sr)) .illegalWord (.next (s.init (.rat (u32 sr))))

/-- `SETP idx, data` (R151): an index above 14 is no legal word (30 R88). -/
def execSetp (idx : BitVec 8) (data : Data) (s : State) : Result :=
  require (decide (idx.toNat ≤ 14)) .illegalWord (require s.vInit .notInitialised (.next (s.writeSnap idx data)))

/-- The Voice's `NoteOn` (R153): frequency, open gate, retriggered ENV1. -/
def State.voiceNoteOn (s : State) (note : Note) : State :=
  { s with
    freq := note2hz s.params note
    gate := true
    env1 := env1Retrigger s.params.retrigHard s.env1 }

/-- The Voice's `NoteOff` (R154): the gate closes, `FREQ` keeps its value. -/
def State.voiceNoteOff (s : State) : State := s.setGate false

/-- `NOTEON note, vel` (R153): the velocity is not used (D14). -/
def execNoteon (note : Note) (_vel : Velocity) (s : State) : Result :=
  require s.vInit .notInitialised (.next (s.voiceNoteOn note))

/-- `NOTEOFF` (R154). -/
def execNoteoff (s : State) : Result := require s.vInit .notInitialised (.next s.voiceNoteOff)

end Sys2Proof.Machine
end

