-- ==== Sys2Proof/Machine/Voice.lean ====
section
/-! DEFINITION. UPDATE, TICK and BLOCK: the Voice pipeline (42_voice.md). -/

namespace Sys2Proof.Machine

/-! ### UPDATE -/

/-- `UPDATE.filter` (R171): the drive is computed from the clamped resonance. -/
def deriveFilter (snap : Vector Data 15) : FilterRegs :=
  let reso := (snapReal snap .res).clamp (.rat 0) resMax
  { baseCut := (snapReal snap .cutoff).clamp cutMin cutMax
    reso := reso
    drive := ((Val.rat 1).add ((Val.rat 4).mul reso.sq)).min driveMax
    cEnvd := (snapReal snap .cutEnvd).clamp (.rat (-1)) (.rat 1)
    cLfod := (snapReal snap .cutLfod).clamp (.rat (-1)) (.rat 1) }

/-- `UPDATE.env` (R172). -/
def deriveEnv (m : Prim) (snap : Vector Data 15) : EnvRegs :=
  { sus := (snapReal snap .sustain).clamp (.rat 0) (.rat 1)
    tAtt := adsrTime m ((snapReal snap .attack).clamp (.rat 0) (.rat 1)) attMin attMax attCurve
    tDec := adsrTime m ((snapReal snap .decay).clamp (.rat 0) (.rat 1)) decMin decMax decCurve
    tRel := adsrTime m ((snapReal snap .release).clamp (.rat 0) (.rat 1)) relMin relMax relCurve }

/-- Every derived register from the snapshot (R170 to R173, 43 R200, R201, 44 R230, R231). -/
def derive (p : Params) (snap : Vector Data 15) : Derived :=
  { osc := deriveOsc snap
    filter := deriveFilter snap
    env := deriveEnv p.math snap
    aMode := snapWord snap .ampMode
    lfo := deriveLfo p snap }

/-- What UPDATE writes (R170): the derived registers wholesale, `FILT.res`, `V_UPD`. -/
def State.update (s : State) : State :=
  { s with
    derived := derive s.params s.snap
    filt := s.filt.setRes (derive s.params s.snap).filter.reso
    vUpd := true }

/-- `UPDATE` (R170): every check is made before any write. -/
def execUpdate (s : State) : Result :=
  require s.vInit .notInitialised <|
  require (allWritten s.pw) .snapshotIncomplete <|
  require (decide (u32 (snapWord s.snap .oscMode) ≤ 2)) .badOscMode <|
  require (selReserved (snapWord s.snap .lfoSel) == 0#29) .badLfoSel <|
  .next s.update

/-! ### TICK -/

/-- The cutoff law (R178): octave-space addition, clamped to [20, 18000] Hz. -/
def cutoffLaw (m : Prim) (r : FilterRegs) (env lfo : Val) : Val :=
  let octaves := ((env.mul r.cEnvd).mul octRange).add ((lfo.mul r.cLfod).mul octRange)
  (r.baseCut.mul (exp2 m octaves)).clamp cutMin cutMax

/-- Step 1: `env` (R176). -/
def tickEnv (s : State) : Env × Val := env1Step s.sr s.derived.env s.gate s.env1

/-- Step 2: `lfo` (R177). -/
def tickLfo (s : State) : LfoBank × Val := lfoStep s.params s.sr s.derived.lfo s.freq (nextDraw s) s.lfo

/-- Step 3: the cutoff of this tick (R178). -/
def tickCutoff (s : State) : Val := cutoffLaw s.params.math s.derived.filter (tickEnv s).2 (tickLfo s).2

/-- Step 5: the oscillator's sample (R179). -/
def tickOsc (s : State) : OscBank × Val :=
  oscProcess s.params s.sr s.derived.osc s.freq (tickEnv s).2 (tickLfo s).2 s.osc

/-- Steps 4 and 6: the filter at this tick's cutoff, driven with `raw · DRIVE` (R178, R180). -/
def tickFilter (s : State) : Filter × Val :=
  ladderProcess s.params.math s.sr (s.filt.setFreq (tickCutoff s)) ((tickOsc s).2.mul s.derived.filter.drive)

/-- Step 7: the amplitude by `A_MODE`; ENV2 advances in mode 2 and in no other (R181). -/
def amplitude (sr tRel : Val) (g : Bool) (aMode : Data) (env : Val) (e2 : Env) : Env × Val :=
  if u32 aMode = 0 then (e2, env)
  else if u32 aMode = 1 then (e2, .rat 1)
  else if u32 aMode = 2 then env2Step sr tRel g e2
  else (e2, .rat 0)

/-- Step 7 of this tick. -/
def tickAmp (s : State) : Env × Val :=
  amplitude s.sr s.derived.env.tRel s.gate s.derived.aMode (tickEnv s).2 s.env2

/-- Step 8: the output sample (R182). -/
def tickOut (s : State) : Val := softClip s.params.softClip ((tickFilter s).2.mul (tickAmp s).2)

/-- One pass of the per-sample pipeline (R175); the draws of this tick are used up. -/
def State.tick (s : State) : State :=
  State.emit
    { s with
      env1 := (tickEnv s).1
      lfo := (tickLfo s).1
      osc := (tickOsc s).1
      filt := (tickFilter s).1
      env2 := (tickAmp s).1
      draws := s.draws.tail
      drawIx := s.drawIx + 1 }
    (tickOut s)

/-- `TICK` (R175). -/
def execTick (s : State) : Result :=
  require s.vInit .notInitialised (require s.vUpd .notUpdated (.next s.tick))

/-! ### BLOCK -/

/-- `repeat n times: TICK` (R184). -/
def State.ticks : Nat → State → State
  | 0, s => s
  | n + 1, s => State.ticks n s.tick

/-- `BLOCK n` (R184). -/
def execBlock (n : Data) (s : State) : Result :=
  require s.vInit .notInitialised (require s.vUpd .notUpdated (.next (State.ticks (u32 n) s)))

end Sys2Proof.Machine
end

