-- ==== Sys2Proof/Machine/VoiceManager.lean ====
section
/-! DEFINITION. Extension VM: the note-priority stack (46_voice_manager.md). -/

namespace Sys2Proof.Machine

/-- `HELD[n]`. -/
def VM.isHeld (v : VM) (n : Note) : Bool := v.held[n.toNat]'n.isLt

/-- `HELD[n] <- b`. -/
def VM.setHeld (v : VM) (n : Note) (b : Bool) : VM := { v with held := v.held.set n.toNat b n.isLt }

/-- The push of a note that is not held: `SEQ[SP] <- note ; SP <- SP + 1 ; HELD[note] <- true ; HCNT <- HCNT + 1` (R281). -/
def VM.push (v : VM) (n : Note) : VM :=
  { v.setHeld n true with seq := v.seq ++ [n], hcnt := v.hcnt + 1 }

/-- `HELD[note] <- false ; HCNT <- HCNT − 1` (R284, R285). -/
def VM.release (v : VM) (n : Note) : VM := { v.setHeld n false with hcnt := v.hcnt - 1 }

/-- `CUR <- note ; LASTVEL <- vel` (R281). -/
def VM.sound (v : VM) (n : Note) (vel : Velocity) : VM := { v with cur := some n, lastVel := vel }

/-- The scan of the pop: the sequence from the top downward to the first entry still held; what lies above it
is trimmed (R284). -/
def VM.scan (v : VM) : List Note := v.seq.rdropWhile fun n => !v.isHeld n

/-- The pop of the current note (R284). -/
def popNote (n : Note) (s : State) : Result :=
  let v := s.vm.release n
  if v.hcnt = 0 then .next ({ s with vm := { v with seq := [], cur := none } }).voiceNoteOff
  else
    match v.scan.getLast? with
    | some c => .next ({ s with vm := { v with seq := v.scan, cur := some c } }.voiceNoteOn c)
    | none => .fault .scanFailed

/-- A note release into the stack (R283 to R285). -/
def noteRelease (n : Note) (s : State) : Result :=
  if !s.vm.isHeld n then .next s
  else if s.vm.cur = some n then popNote n s
  else .next { s with vm := s.vm.release n }

/-- A note press into the stack with velocity at least 1 (R281): a held note is re-asserted without a second push. -/
def notePress (n : Note) (vel : Velocity) (s : State) : Result :=
  if s.vm.isHeld n then .next ({ s with vm := s.vm.sound n vel }.voiceNoteOn n)
  else if vmCap ≤ s.sp then .fault .stackOverflow
  else .next ({ s with vm := (s.vm.push n).sound n vel }.voiceNoteOn n)

/-- `EVNOTEON ch, note, vel` (R281, R282): velocity 0 is a note-off; the channel is not used (D37). -/
def execEvnoteon (_ch : Channel) (note : Note) (vel : Velocity) (s : State) : Result :=
  require s.params.hasVM .noVM <| require s.vInit .notInitialised <|
    if vel = 0#7 then noteRelease note s else notePress note vel s

/-- `EVNOTEOFF ch, note, vel` (R283): neither the channel nor the release velocity is used. -/
def execEvnoteoff (_ch : Channel) (note : Note) (_vel : Velocity) (s : State) : Result :=
  require s.params.hasVM .noVM <| require s.vInit .notInitialised <| noteRelease note s

end Sys2Proof.Machine
end

