-- ==== Sys2Proof/Machine/Dispatch.lean ====
section
/-! DEFINITION. What each command does: one arm per constructor of Instr. -/

namespace Sys2Proof.Machine

def exec (i : Instr) (s : State) : Host.Outcome State Fault Refusal :=
  match i with
  | .init sr => Sys2Proof.Machine.execInit sr s
  | .setp idx data => Sys2Proof.Machine.execSetp idx data s
  | .update => Sys2Proof.Machine.execUpdate s
  | .noteon note vel => Sys2Proof.Machine.execNoteon note vel s
  | .noteoff => Sys2Proof.Machine.execNoteoff s
  | .tick => Sys2Proof.Machine.execTick s
  | .block n => Sys2Proof.Machine.execBlock n s
  | .evnoteon ch note vel => Sys2Proof.Machine.execEvnoteon ch note vel s
  | .evnoteoff ch note vel => Sys2Proof.Machine.execEvnoteoff ch note vel s

end Sys2Proof.Machine
end

