-- ==== Sys2Proof/Machine/Port.lean ====
section
/-! DEFINITION. The command port (20_memory.md R70, R74; 30_encoding.md R88, R89; 60_exceptions.md R312, R313): what presenting a command word does, the host's words still to come, and a run that goes on after a refusal or a fault with its mark set. -/

namespace Sys2Proof.Machine

/-- What one presented word does: an illegal word is refused, any other is executed (30 R89). -/
def runWord (w : Word) (s : State) : Result :=
  match decode w with
  | .ok i => exec i s
  | .error _ => .refused .illegalWord

/-- The next word the host presents, and the state with that word taken from the port. -/
def takeWord (s : State) : Option (Word × State) :=
  match s.port with
  | [] => none
  | w :: rest => some (w, { s with port := rest })

/-- One step of the machine (log 9, log 10): a run that carries a mark reports it again and goes no further
(60 R312, R313); else the next word the host presents is run; with no word presented the block waits. -/
def runNext (s : State) : Result :=
  match s.faultMark, s.refusalMark with
  | some r, _ => .fault r
  | none, some r => .refused r
  | none, none =>
    match takeWord s with
    | none => .next s
    | some (w, t) => runWord w t

/-- The state of a run after the host presents one word, marks included (60 R312, R313; 70 R361). -/
def present (s : State) (w : Word) : State := settle s (runWord w s)

/-- The state of a run after a sequence of words. -/
def presentAll (s : State) (ws : List Word) : State := ws.foldl present s

/-- The host is about to present `w`: it is the next word of the port, and the run carries no mark that
would keep it from being run. -/
def offerWord (s : State) (w : Word) : State :=
  { s with port := w :: s.port, faultMark := none, refusalMark := none }

end Sys2Proof.Machine
end

