-- ==== Sys2Proof/Machine/Step.lean ====
section
/-! DEFINITION. One step of the machine: the next presented command (20_memory.md R70). -/

namespace Sys2Proof.Machine

/-- One step. -/
def step (s : State) : Host.Outcome State Fault Refusal := runNext s

/-- The state with the command word `w` next at the port; every command is one 64-bit word (30 R81). -/
def State.withFetchWord (s : State) (_nbits w : Nat) : State := offerWord s (BitVec.ofNat 64 w)

end Sys2Proof.Machine
end

