-- ==== Sys2Proof/Laws/PerInstr.lean ====
section
/-! SUPPORT. Statements about an instruction as syntax, made per constructor. Family EncodedFields: the encoder puts the opcode of 30_encoding.md R84 in bits 63:56, SETP's index or zero in bits 55:48, zero in bits 47:32, and the operand of the format in bits 31:0. -/

namespace Sys2Proof.Laws.EncodedFields

/-- The four fields of the encoded word (30 R82). -/
def Statement (i : Instr) : Prop :=
  Word.op (encode i) = i.opcode ∧ Word.idx (encode i) = i.idxField ∧
    Word.zero (encode i) = 0#16 ∧ Word.data (encode i) = i.dataField

theorem packed (op idx : BitVec 8) (d : Data) :
    Word.op (packWord op idx d) = op ∧ Word.idx (packWord op idx d) = idx ∧
      Word.zero (packWord op idx d) = 0#16 ∧ Word.data (packWord op idx d) = d := by
  refine ⟨?_, ?_, ?_, ?_⟩ <;>
    · ext k hk
      simp only [Word.op, Word.idx, Word.zero, Word.data, packWord, BitVec.getElem_extractLsb', BitVec.getLsbD_append]
      grind

theorem init (sr : Data) : Statement (.init sr) := packed _ _ _
theorem setp (idx : BitVec 8) (data : Data) : Statement (.setp idx data) := packed _ _ _
theorem update : Statement .update := packed _ _ _
theorem noteon (note : Note) (vel : Velocity) : Statement (.noteon note vel) := packed _ _ _
theorem noteoff : Statement .noteoff := packed _ _ _
theorem tick : Statement .tick := packed _ _ _
theorem block (n : Data) : Statement (.block n) := packed _ _ _
theorem evnoteon (ch : Channel) (note : Note) (vel : Velocity) : Statement (.evnoteon ch note vel) := packed _ _ _
theorem evnoteoff (ch : Channel) (note : Note) (vel : Velocity) : Statement (.evnoteoff ch note vel) := packed _ _ _

end Sys2Proof.Laws.EncodedFields
end

