-- ==== Sys2Proof/Laws/Decode.lean ====
section
/-! SUPPORT. What the decoder can answer, said once per format and once for the whole decoder (30_encoding.md R82 to R89), and what packing and reading back an operand gives. -/

namespace Sys2Proof

/-- A failed check answers no command. -/
theorem check_eq_ok {c : Prop} [Decidable c] {e : IllegalReason} {k : Except IllegalReason Instr} {i : Instr} :
    (if c then .error e else k) = .ok i ↔ ¬c ∧ k = .ok i := by
  by_cases h : c <;> simp [h]

/-! ### Operands -/

theorem packN_fields (n : Note) (v : Velocity) :
    (packN n v).note = n ∧ (packN n v).vel = v ∧ (packN n v).extractLsb' 7 1 = 0#1 ∧
      (packN n v).extractLsb' 15 17 = 0#17 := by
  refine ⟨?_, ?_, ?_, ?_⟩ <;>
    · ext k hk
      simp only [Data.note, Data.vel, packN, BitVec.getElem_extractLsb', BitVec.getLsbD_append]
      grind

theorem packE_fields (c : Channel) (n : Note) (v : Velocity) :
    (packE c n v).chan = c ∧ (packE c n v).note = n ∧ (packE c n v).vel = v ∧
      (packE c n v).extractLsb' 7 1 = 0#1 ∧ (packE c n v).extractLsb' 15 1 = 0#1 ∧
      (packE c n v).extractLsb' 20 12 = 0#12 := by
  refine ⟨?_, ?_, ?_, ?_, ?_, ?_⟩ <;>
    · ext k hk
      simp only [Data.note, Data.vel, Data.chan, packE, BitVec.getElem_extractLsb', BitVec.getLsbD_append]
      grind

theorem packN_of_fields {d : Data} (h1 : d.extractLsb' 7 1 = 0#1) (h2 : d.extractLsb' 15 17 = 0#17) :
    packN d.note d.vel = d := by
  rw [packN, ← h1, ← h2]
  ext k hk
  simp only [Data.note, Data.vel, BitVec.getElem_append, BitVec.getElem_extractLsb']
  grind

theorem packE_of_fields {d : Data} (h1 : d.extractLsb' 7 1 = 0#1) (h2 : d.extractLsb' 15 1 = 0#1)
    (h3 : d.extractLsb' 20 12 = 0#12) : packE d.chan d.note d.vel = d := by
  have whole : packE d.chan d.note d.vel =
      d.extractLsb' 20 12 ++ (d.chan ++ (d.extractLsb' 15 1 ++ (d.vel ++ (d.extractLsb' 7 1 ++ d.note)))) := by
    rw [packE, h1, h2, h3]
  rw [whole]
  ext k hk
  simp only [Data.note, Data.vel, Data.chan, BitVec.getElem_append, BitVec.getElem_extractLsb']
  grind

theorem packWord_of_fields {w : Word} (h : Word.zero w = 0#16) :
    packWord (Word.op w) (Word.idx w) (Word.data w) = w := by
  rw [packWord, ← h]
  ext k hk
  simp only [Word.op, Word.idx, Word.zero, Word.data, BitVec.getElem_append, BitVec.getElem_extractLsb']
  grind

/-! ### The decoder, format by format -/

theorem decodeZ_eq_ok {w : Word} {i j : Instr} :
    decodeZ w j = .ok i ↔ Word.idx w = 0#8 ∧ Word.data w = 0#32 ∧ j = i := by
  rw [decodeZ, check_eq_ok, check_eq_ok]; simp

theorem decodeInit_eq_ok {w : Word} {i : Instr} :
    decodeInit w = .ok i ↔ Word.idx w = 0#8 ∧ Word.data w ≠ 0#32 ∧ .init (Word.data w) = i := by
  rw [decodeInit, check_eq_ok, check_eq_ok]; simp

theorem decodeBlock_eq_ok {w : Word} {i : Instr} :
    decodeBlock w = .ok i ↔ Word.idx w = 0#8 ∧ .block (Word.data w) = i := by
  rw [decodeBlock, check_eq_ok]; simp

theorem decodeSetp_eq_ok {w : Word} {i : Instr} :
    decodeSetp w = .ok i ↔ (Word.idx w).toNat ≤ 14 ∧ .setp (Word.idx w) (Word.data w) = i := by
  unfold decodeSetp; split <;> simp_all

theorem decodeN_eq_ok {w : Word} {i : Instr} :
    decodeN w = .ok i ↔ Word.idx w = 0#8 ∧
      ((Word.data w).extractLsb' 7 1 = 0#1 ∧ (Word.data w).extractLsb' 15 17 = 0#17) ∧
      .noteon (Word.data w).note (Word.data w).vel = i := by
  rw [decodeN, check_eq_ok, check_eq_ok]; simp

theorem decodeE_eq_ok {w : Word} {i : Instr} {mk : Channel → Note → Velocity → Instr} :
    decodeE w mk = .ok i ↔ Word.idx w = 0#8 ∧
      ((Word.data w).extractLsb' 7 1 = 0#1 ∧ (Word.data w).extractLsb' 15 1 = 0#1 ∧
        (Word.data w).extractLsb' 20 12 = 0#12) ∧
      mk (Word.data w).chan (Word.data w).note (Word.data w).vel = i := by
  rw [decodeE, check_eq_ok, check_eq_ok]; simp

/-- All a decoded word can be: one of the nine commands, under its own opcode. -/
theorem decode_eq_ok {w : Word} {i : Instr} (h : decode w = .ok i) :
    Word.zero w = 0#16 ∧
      ((Word.op w = 0x01#8 ∧ decodeInit w = .ok i) ∨ (Word.op w = 0x02#8 ∧ decodeSetp w = .ok i) ∨
        (Word.op w = 0x03#8 ∧ decodeZ w .update = .ok i) ∨ (Word.op w = 0x04#8 ∧ decodeN w = .ok i) ∨
        (Word.op w = 0x05#8 ∧ decodeZ w .noteoff = .ok i) ∨ (Word.op w = 0x06#8 ∧ decodeZ w .tick = .ok i) ∨
        (Word.op w = 0x07#8 ∧ decodeBlock w = .ok i) ∨ (Word.op w = 0x10#8 ∧ decodeE w .evnoteon = .ok i) ∨
        (Word.op w = 0x11#8 ∧ decodeE w .evnoteoff = .ok i)) := by
  rw [decode, check_eq_ok] at h
  refine ⟨not_not.mp h.1, ?_⟩
  have k := h.2
  by_cases h1 : Word.op w = 0x01#8
  · exact .inl ⟨h1, by rwa [if_pos h1] at k⟩
  rw [if_neg h1] at k
  by_cases h2 : Word.op w = 0x02#8
  · exact .inr (.inl ⟨h2, by rwa [if_pos h2] at k⟩)
  rw [if_neg h2] at k
  by_cases h3 : Word.op w = 0x03#8
  · exact .inr (.inr (.inl ⟨h3, by rwa [if_pos h3] at k⟩))
  rw [if_neg h3] at k
  by_cases h4 : Word.op w = 0x04#8
  · exact .inr (.inr (.inr (.inl ⟨h4, by rwa [if_pos h4] at k⟩)))
  rw [if_neg h4] at k
  by_cases h5 : Word.op w = 0x05#8
  · exact .inr (.inr (.inr (.inr (.inl ⟨h5, by rwa [if_pos h5] at k⟩))))
  rw [if_neg h5] at k
  by_cases h6 : Word.op w = 0x06#8
  · exact .inr (.inr (.inr (.inr (.inr (.inl ⟨h6, by rwa [if_pos h6] at k⟩)))))
  rw [if_neg h6] at k
  by_cases h7 : Word.op w = 0x07#8
  · exact .inr (.inr (.inr (.inr (.inr (.inr (.inl ⟨h7, by rwa [if_pos h7] at k⟩))))))
  rw [if_neg h7] at k
  by_cases h8 : Word.op w = 0x10#8
  · exact .inr (.inr (.inr (.inr (.inr (.inr (.inr (.inl ⟨h8, by rwa [if_pos h8] at k⟩)))))))
  rw [if_neg h8] at k
  by_cases h9 : Word.op w = 0x11#8
  · exact .inr (.inr (.inr (.inr (.inr (.inr (.inr (.inr ⟨h9, by rwa [if_pos h9] at k⟩)))))))
  rw [if_neg h9] at k
  cases k

/-- A slice is zero iff each of its bits is. -/
theorem extractLsb'_eq_zero {n : Nat} (x : BitVec n) (start len : Nat) :
    x.extractLsb' start len = 0#len ↔ ∀ k, start ≤ k → k < start + len → x.getLsbD k = false := by
  constructor
  · intro h k h1 h2
    have bit := congrArg (fun z => z.getLsbD (k - start)) h
    simpa only [BitVec.getLsbD_extractLsb', BitVec.getLsbD_zero, show start + (k - start) = k by omega,
      show k - start < len by omega, decide_true, Bool.true_and] using bit
  · intro h
    ext k hk
    simp [h (start + k) (by omega) (by omega)]

end Sys2Proof
end

