-- ==== Sys2Proof/Laws/Arith.lean ====
section
/-! SUPPORT. Each operation on data is the exact operation on the real numbers they stand for (00_scope.md R8, 40_primitives.md R110): a proof moves to ℝ by these lemmas and cites no definition of Machine/Arith.lean. -/

namespace Sys2Proof

/-! ### Values -/

@[simp] theorem Val.real_rat (q : ℚ) : (Val.rat q).real = (q : ℝ) := Config.num.nums.real_rat q

@[simp] theorem Val.real_add (a b : Val) : (a.add b).real = a.real + b.real := by
  cases a <;> cases b <;> first
    | exact Config.num.nums.real_add _ _
    | (simp only [Val.add, Val.real_rat]; push_cast; rfl)

@[simp] theorem Val.real_sub (a b : Val) : (a.sub b).real = a.real - b.real := by
  cases a <;> cases b <;> first
    | exact Config.num.nums.real_sub _ _
    | (simp only [Val.sub, Val.real_rat]; push_cast; rfl)

@[simp] theorem Val.real_mul (a b : Val) : (a.mul b).real = a.real * b.real := by
  cases a <;> cases b <;> first
    | exact Config.num.nums.real_mul _ _
    | (simp only [Val.mul, Val.real_rat]; push_cast; rfl)

@[simp] theorem Val.real_div (a b : Val) : (a.div b).real = a.real / b.real := by
  cases a <;> cases b <;> first
    | exact Config.num.nums.real_div _ _
    | (simp only [Val.div, Val.real_rat]; push_cast; rfl)

@[simp] theorem Val.real_neg (v : Val) : v.neg.real = -v.real := by simp [Val.neg]

@[simp] theorem Val.real_sq (v : Val) : v.sq.real = v.real ^ 2 := by rw [Val.sq, Val.real_mul, pow_two]

/-! ### Comparisons -/

@[simp] theorem Val.le_iff (a b : Val) : a.le b = true ↔ a.real ≤ b.real := by
  cases a <;> cases b <;> first
    | exact Config.num.nums.le_iff _ _
    | simp only [Val.le, Val.real_rat, decide_eq_true_eq, Rat.cast_le]

@[simp] theorem Val.lt_iff (a b : Val) : a.lt b = true ↔ a.real < b.real := by
  rw [Val.lt, Bool.not_eq_true', ← Bool.not_eq_true, Val.le_iff, not_le]

@[simp] theorem Val.same_iff (a b : Val) : a.same b = true ↔ a.real = b.real := by
  rw [Val.same, Bool.and_eq_true, Val.le_iff, Val.le_iff, ← le_antisymm_iff]

@[simp] theorem Val.real_min (a b : Val) : (a.min b).real = Min.min a.real b.real := by
  unfold Val.min
  split <;> rename_i h <;> rw [Val.le_iff] at h
  · exact (min_eq_left h).symm
  · exact (min_eq_right (not_le.mp h).le).symm

@[simp] theorem Val.real_max (a b : Val) : (a.max b).real = Max.max a.real b.real := by
  unfold Val.max
  split <;> rename_i h <;> rw [Val.le_iff] at h
  · exact (max_eq_left h).symm
  · exact (max_eq_right (not_le.mp h).le).symm

@[simp] theorem Val.real_abs (v : Val) : v.abs.real = |v.real| := by
  rw [Val.abs, Val.real_max, Val.real_neg]; rfl

@[simp] theorem Val.real_clamp (v lo hi : Val) : (v.clamp lo hi).real = Min.min (Max.max v.real lo.real) hi.real := by
  rw [Val.clamp, Val.real_min, Val.real_max]

/-! ### Floor, fraction, modulus -/

@[simp] theorem Val.floor_eq (v : Val) : v.floor = ⌊v.real⌋ := by
  cases v with
  | rat q => rw [Val.floor, Val.real_rat, Rat.floor_cast]
  | named n => exact Config.num.nums.floor_eq _

@[simp] theorem Val.real_frac (v : Val) : v.frac.real = Int.fract v.real := by
  rw [Val.frac, Val.real_sub, Val.real_rat, Val.floor_eq, Rat.cast_intCast]; rfl

@[simp] theorem Val.real_mod (v m : Val) : (v.mod m).real = v.real - m.real * ⌊v.real / m.real⌋ := by
  rw [Val.mod, Val.real_sub, Val.real_mul, Val.real_rat, Val.floor_eq, Rat.cast_intCast, Val.real_div]

/-! ### Ranges -/

theorem Val.le_clamp {v lo hi : Val} (h : lo.real ≤ hi.real) : lo.real ≤ (v.clamp lo hi).real := by
  rw [Val.real_clamp]; exact le_min (le_max_right _ _) h

theorem Val.clamp_le (v lo hi : Val) : (v.clamp lo hi).real ≤ hi.real := by
  rw [Val.real_clamp]; exact min_le_right _ _

/-- A clamp returns a value already in range as it is. -/
theorem Val.clamp_of_mem {v lo hi : Val} (h : lo.real ≤ v.real) (h' : v.real ≤ hi.real) : v.clamp lo hi = v := by
  rw [Val.clamp, Val.max, if_pos ((Val.le_iff _ _).mpr h), Val.min, if_pos ((Val.le_iff _ _).mpr h')]

theorem Val.frac_nonneg (v : Val) : 0 ≤ v.frac.real := by rw [Val.real_frac]; exact Int.fract_nonneg _

theorem Val.frac_lt_one (v : Val) : v.frac.real < 1 := by rw [Val.real_frac]; exact Int.fract_lt_one _

end Sys2Proof
end

