-- ==== Sys2Proof/Laws/Math.lean ====
section
/-! SUPPORT. What the transcendental functions and the helpers do, said once, as real numbers (40_primitives.md R111, R113 to R118). -/

namespace Sys2Proof.Machine

/-! ### The tests before a free function spell out values its contract already forces -/

theorem eq_num_of_den_one {x : ℚ} (h : x.den = 1) : x = (x.num : ℚ) := by
  conv_lhs => rw [← Rat.num_div_den x, h]
  simp

/-- `EXP2` is the function of Config. -/
theorem exp2_eq (p : Prim) (x : Val) : (exp2 p x).real = ((mathFns p).exp2 x).real := by
  cases x with
  | named n => rfl
  | rat q =>
    simp only [exp2]
    split_ifs with h0 h1
    · have := (mathFns p).exp2_zero (.rat q) (by rw [h0]; exact (Val.real_rat 0).trans Rat.cast_zero)
      exact (by simp : (Val.rat 1).real = 1).trans this.symm
    · obtain ⟨rfl, hd⟩ := h1
      have := Config.num.ideal.exp2_int (.rat q) q.num
        ((Val.real_rat q).trans (by conv_lhs => rw [eq_num_of_den_one hd, Rat.cast_intCast]))
      rw [Val.real_rat]; push_cast; exact this.symm
    · rfl

/-- `POW` is the function of Config wherever the rules use it: at a base ≥ 0 (and an exponent > 0 at base 0). -/
theorem pow_eq (p : Prim) {b e : Val} (hb : 0 ≤ b.real) (h0 : b.real = 0 → 0 < e.real) :
    (pow p b e).real = ((mathFns p).pow b e).real := by
  cases b with
  | named n => rfl
  | rat c =>
    cases e with
    | named n => rfl
    | rat q =>
      rw [Val.real_rat] at hb h0
      rw [Val.real_rat] at h0
      simp only [pow]
      split_ifs with h1 h2 h3 h4 h5
      · have := (mathFns p).one_pow (.rat c) (.rat q) ((Val.real_rat c).trans (by rw [h1, Rat.cast_one]))
        exact (by simp : (Val.rat 1).real = 1).trans this.symm
      · have := (mathFns p).pow_zero (.rat c) (.rat q) (lt_of_lt_of_eq (Rat.cast_pos.mpr h2.1) (Val.real_rat c).symm)
          ((Val.real_rat q).trans (by rw [h2.2, Rat.cast_zero]))
        exact (by simp : (Val.rat 1).real = 1).trans this.symm
      · exact ((mathFns p).pow_one (.rat c) (.rat q) (le_of_le_of_eq hb (Val.real_rat c).symm)
          ((Val.real_rat q).trans (by rw [h3.2, Rat.cast_one]))).symm
      · have := (mathFns p).zero_pow (.rat c) (.rat q) ((Val.real_rat c).trans (by rw [h4.1, Rat.cast_zero]))
          (lt_of_lt_of_eq (Rat.cast_pos.mpr h4.2) (Val.real_rat q).symm)
        exact (by simp : (Val.rat 0).real = 0).trans this.symm
      · obtain ⟨rfl, rfl, hd⟩ := h5
        have hq : (q : ℝ) = ((4 * q).num : ℝ) / 4 := by
          have h4 : (4 : ℚ) * q = ((4 * q).num : ℚ) := eq_num_of_den_one hd
          have h4 : (4 : ℝ) * q = ((4 * q).num : ℝ) := by exact_mod_cast congrArg (Rat.cast (K := ℝ)) h4
          rw [← h4]; ring
        have := Config.num.ideal.pow_quarter (.rat 10000) (.rat q) (4 * q).num
          ((Val.real_rat _).trans (by norm_num)) ((Val.real_rat q).trans hq)
        rw [Val.real_rat]; push_cast; exact this.symm
      · rfl

theorem MathFns.sint_add_int {r : Val → ℝ} (hr : ∀ q : ℚ, r (.rat q) = q) (m : MathFns r) (q : ℚ) (n : ℤ) :
    r (m.sint (.rat (q + n))) = r (m.sint (.rat q)) := by
  induction n using Int.induction_on with
  | zero => rw [Int.cast_zero, add_zero]
  | succ k ih =>
    rw [← ih]
    exact m.sint_add_one _ _ (by rw [hr, hr]; push_cast; ring)
  | pred k ih =>
    rw [← ih]
    exact (m.sint_add_one _ _ (by rw [hr, hr]; push_cast; ring)).symm

theorem sint_fract (p : Prim) (q : ℚ) : ((mathFns p).sint (.rat (Int.fract q))).real = ((mathFns p).sint (.rat q)).real := by
  have := MathFns.sint_add_int Config.num.nums.real_rat (mathFns p) (Int.fract q) ⌊q⌋
  rw [Int.fract_add_floor] at this
  exact this.symm

/-- `SINT` is the function of Config. -/
theorem sint_eq (p : Prim) (t : Val) : (sint p t).real = ((mathFns p).sint t).real := by
  cases t with
  | named n => rfl
  | rat q =>
    simp only [sint]
    split_ifs with h0 h1 h2 h3
    · obtain ⟨rfl, h⟩ := h0
      rw [← sint_fract, h]
      exact (by simp : (Val.rat 0).real = 0).trans
        (Config.num.ideal.sint_zero (.rat 0) ((Val.real_rat _).trans (by norm_num))).symm
    · obtain ⟨rfl, h⟩ := h1
      rw [← sint_fract, h]
      exact (by simp : (Val.rat 1).real = 1).trans
        (Config.num.ideal.sint_quarter (.rat (1 / 4)) ((Val.real_rat _).trans (by norm_num))).symm
    · obtain ⟨rfl, h⟩ := h2
      rw [← sint_fract, h]
      exact (by simp : (Val.rat 0).real = 0).trans
        (Config.num.ideal.sint_half (.rat (1 / 2)) ((Val.real_rat _).trans (by norm_num))).symm
    · obtain ⟨rfl, h⟩ := h3
      rw [← sint_fract, h]
      exact (by simp : (Val.rat (-1)).real = -1).trans
        (Config.num.ideal.sint_three_quarters (.rat (3 / 4)) ((Val.real_rat _).trans (by norm_num))).symm
    · rfl

/-! ### The identities of R111, for the functions the rules use -/

theorem exp2_congr (p : Prim) {x y : Val} (h : x.real = y.real) : (exp2 p x).real = (exp2 p y).real := by
  rw [exp2_eq, exp2_eq]; exact (mathFns p).exp2_congr x y h

theorem exp2_zero (p : Prim) {x : Val} (h : x.real = 0) : (exp2 p x).real = 1 := by
  rw [exp2_eq]; exact (mathFns p).exp2_zero x h

theorem exp2_lt (p : Prim) {x y : Val} (h : x.real < y.real) : (exp2 p x).real < (exp2 p y).real := by
  rw [exp2_eq, exp2_eq]; exact (mathFns p).exp2_lt x y h

theorem exp2_le (p : Prim) {x y : Val} (h : x.real ≤ y.real) : (exp2 p x).real ≤ (exp2 p y).real :=
  h.lt_or_eq.elim (fun h => (exp2_lt p h).le) (fun h => (exp2_congr p h).le)

theorem one_le_exp2 (p : Prim) {x : Val} (h : 0 ≤ x.real) : 1 ≤ (exp2 p x).real := by
  have zero : (Val.rat 0).real = 0 := by simp
  rw [← exp2_zero p zero]
  exact exp2_le p (by rw [zero]; exact h)

/-- The ideal `EXP2` at whole numbers. -/
theorem exp2_int {x : Val} (n : ℤ) (h : x.real = n) : (exp2 .reference x).real = 2 ^ n := by
  rw [exp2_eq]; exact Config.num.ideal.exp2_int x n h

theorem powFn_congr (p : Prim) {b c x y : Val} (hb : 0 ≤ b.real) (h0 : b.real = 0 → 0 < x.real)
    (hbc : b.real = c.real) (hxy : x.real = y.real) : (pow p b x).real = (pow p c y).real := by
  rw [pow_eq p hb h0, pow_eq p (hbc ▸ hb) (fun h => hxy ▸ h0 (hbc.trans h))]
  exact (mathFns p).pow_congr b c x y hbc hxy

theorem powFn_pow_zero (p : Prim) {b e : Val} (hb : 0 < b.real) (he : e.real = 0) : (pow p b e).real = 1 := by
  rw [pow_eq p hb.le (fun h => absurd h hb.ne')]; exact (mathFns p).pow_zero b e hb he

theorem powFn_pow_one (p : Prim) {b e : Val} (hb : 0 ≤ b.real) (he : e.real = 1) : (pow p b e).real = b.real := by
  rw [pow_eq p hb (fun _ => he ▸ one_pos)]; exact (mathFns p).pow_one b e hb he

theorem powFn_zero_pow (p : Prim) {b e : Val} (hb : b.real = 0) (he : 0 < e.real) : (pow p b e).real = 0 := by
  rw [pow_eq p hb.ge (fun _ => he)]; exact (mathFns p).zero_pow b e hb he

theorem powFn_one_pow (p : Prim) {b : Val} (e : Val) (hb : b.real = 1) : (pow p b e).real = 1 := by
  rw [pow_eq p (hb ▸ zero_le_one) (fun h => absurd (hb.symm.trans h) one_ne_zero)]; exact (mathFns p).one_pow b e hb

theorem powFn_pow_lt_right (p : Prim) {b x y : Val} (hb : 1 < b.real) (h : x.real < y.real) :
    (pow p b x).real < (pow p b y).real := by
  have hn : ∀ e : Val, b.real = 0 → 0 < e.real := fun e h0 => absurd h0 (by linarith)
  rw [pow_eq p (by linarith) (hn x), pow_eq p (by linarith) (hn y)]
  exact (mathFns p).pow_lt_right b x y hb h

theorem powFn_pow_lt_left (p : Prim) {b c e : Val} (he : 0 < e.real) (hb : 0 ≤ b.real) (h : b.real < c.real) :
    (pow p b e).real < (pow p c e).real := by
  rw [pow_eq p hb (fun _ => he), pow_eq p (hb.trans h.le) (fun _ => he)]
  exact (mathFns p).pow_lt_left b c e he hb h

/-- The ideal `10000^x` at quarters. -/
theorem powFn_quarter {b x : Val} (n : ℤ) (hb : b.real = 10000) (hx : x.real = n / 4) :
    (pow .reference b x).real = 10 ^ n := by
  rw [pow_eq _ (by rw [hb]; norm_num) (fun h => absurd (hb.symm.trans h) (by norm_num))]
  exact Config.num.ideal.pow_quarter b x n hb hx

theorem sint_zero (p : Prim) {t : Val} (h : t.real = 0) : (sint p t).real = 0 := by
  rw [sint_eq]; exact (mathFns p).sint_zero t h

theorem abs_sint_le (p : Prim) (t : Val) : |(sint p t).real| ≤ 1 := by rw [sint_eq]; exact (mathFns p).abs_sint_le t

theorem sint_add_one (p : Prim) {t u : Val} (h : u.real = t.real + 1) : (sint p u).real = (sint p t).real := by
  rw [sint_eq, sint_eq]; exact (mathFns p).sint_add_one t u h

theorem exp_mem_of_neg (p : Prim) {x : Val} (h : x.real < 0) : 0 < (exp p x).real ∧ (exp p x).real < 1 :=
  ⟨(mathFns p).exp_pos_of_neg x h, (mathFns p).exp_lt_one_of_neg x h⟩

/-- `π` of the ideal functions. -/
theorem pi_reference_pos : 0 < (pi .reference).real := lt_trans (by norm_num) Config.num.ideal.three_lt_pi

/-! ### The helpers as real functions (R113 to R118) -/

@[simp] theorem real_expmap (p : Prim) (k lo hi : Val) : (expmap p k lo hi).real = lo.real * (pow p (hi.div lo) k).real := by
  rw [expmap, Val.real_mul]

@[simp] theorem real_adsrTime (p : Prim) (k lo hi c : Val) :
    (adsrTime p k lo hi c).real = lo.real * (pow p (hi.div lo) (pow p k c)).real := by
  rw [adsrTime, Val.real_mul]

@[simp] theorem real_limiter_reference (u : Val) :
    (limiter .reference u).real = u.real * (27 + u.real ^ 2) / (27 + 9 * u.real ^ 2) := by
  simp [limiter]

@[simp] theorem real_tri4 (u : Val) : (tri4 u).real = 1 - |u.real + 1 - 4 * ⌊(u.real + 1) / 4⌋ - 2| := by
  simp [tri4]

@[simp] theorem real_fold (s a : Val) : (fold s a).real = (tri4 (s.mul ((Val.rat 1).add (foldGain.mul a)))).real := rfl

@[simp] theorem real_cubicClip (s : Val) :
    (cubicClip s).real = 3 / 2 * min (max s.real (-1)) 1 - 1 / 2 * min (max s.real (-1)) 1 ^ 3 := by
  simp only [cubicClip, Val.real_sub, Val.real_mul, Val.real_rat, Val.real_clamp, Val.real_sq]
  push_cast; ring

@[simp] theorem real_crossFade (t a b : Val) : (crossFade t a b).real = (1 - t.real) * a.real + t.real * b.real := by
  simp [crossFade]

end Sys2Proof.Machine
end

