-- ==== Sys2Proof/Laws/State.lean ====
section
/-! SUPPORT. One lemma per field per named update of the state, each true by rfl: no later proof unfolds a record update. -/

namespace Sys2Proof.Machine

/-! ### `State.writeSnap` -/

@[simp] theorem State.writeSnap_params (s : State) (i : BitVec 8) (d : Data) : (s.writeSnap i d).params = s.params := rfl
@[simp] theorem State.writeSnap_vInit (s : State) (i : BitVec 8) (d : Data) : (s.writeSnap i d).vInit = s.vInit := rfl
@[simp] theorem State.writeSnap_vUpd (s : State) (i : BitVec 8) (d : Data) : (s.writeSnap i d).vUpd = s.vUpd := rfl
@[simp] theorem State.writeSnap_pw (s : State) (i : BitVec 8) (d : Data) : (s.writeSnap i d).pw = markWritten s.pw i := rfl
@[simp] theorem State.writeSnap_sr (s : State) (i : BitVec 8) (d : Data) : (s.writeSnap i d).sr = s.sr := rfl
@[simp] theorem State.writeSnap_freq (s : State) (i : BitVec 8) (d : Data) : (s.writeSnap i d).freq = s.freq := rfl
@[simp] theorem State.writeSnap_gate (s : State) (i : BitVec 8) (d : Data) : (s.writeSnap i d).gate = s.gate := rfl
@[simp] theorem State.writeSnap_snap (s : State) (i : BitVec 8) (d : Data) : (s.writeSnap i d).snap = s.snap.setIfInBounds i.toNat d := rfl
@[simp] theorem State.writeSnap_derived (s : State) (i : BitVec 8) (d : Data) : (s.writeSnap i d).derived = s.derived := rfl
@[simp] theorem State.writeSnap_env1 (s : State) (i : BitVec 8) (d : Data) : (s.writeSnap i d).env1 = s.env1 := rfl
@[simp] theorem State.writeSnap_env2 (s : State) (i : BitVec 8) (d : Data) : (s.writeSnap i d).env2 = s.env2 := rfl
@[simp] theorem State.writeSnap_filt (s : State) (i : BitVec 8) (d : Data) : (s.writeSnap i d).filt = s.filt := rfl
@[simp] theorem State.writeSnap_osc (s : State) (i : BitVec 8) (d : Data) : (s.writeSnap i d).osc = s.osc := rfl
@[simp] theorem State.writeSnap_lfo (s : State) (i : BitVec 8) (d : Data) : (s.writeSnap i d).lfo = s.lfo := rfl
@[simp] theorem State.writeSnap_out (s : State) (i : BitVec 8) (d : Data) : (s.writeSnap i d).out = s.out := rfl
@[simp] theorem State.writeSnap_outs (s : State) (i : BitVec 8) (d : Data) : (s.writeSnap i d).outs = s.outs := rfl
@[simp] theorem State.writeSnap_vm (s : State) (i : BitVec 8) (d : Data) : (s.writeSnap i d).vm = s.vm := rfl
@[simp] theorem State.writeSnap_refusalMark (s : State) (i : BitVec 8) (d : Data) : (s.writeSnap i d).refusalMark = s.refusalMark := rfl
@[simp] theorem State.writeSnap_faultMark (s : State) (i : BitVec 8) (d : Data) : (s.writeSnap i d).faultMark = s.faultMark := rfl
@[simp] theorem State.writeSnap_port (s : State) (i : BitVec 8) (d : Data) : (s.writeSnap i d).port = s.port := rfl
@[simp] theorem State.writeSnap_draws (s : State) (i : BitVec 8) (d : Data) : (s.writeSnap i d).draws = s.draws := rfl
@[simp] theorem State.writeSnap_drawIx (s : State) (i : BitVec 8) (d : Data) : (s.writeSnap i d).drawIx = s.drawIx := rfl

/-! ### `State.setGate` -/

@[simp] theorem State.setGate_params (s : State) (g : Bool) : (s.setGate g).params = s.params := rfl
@[simp] theorem State.setGate_vInit (s : State) (g : Bool) : (s.setGate g).vInit = s.vInit := rfl
@[simp] theorem State.setGate_vUpd (s : State) (g : Bool) : (s.setGate g).vUpd = s.vUpd := rfl
@[simp] theorem State.setGate_pw (s : State) (g : Bool) : (s.setGate g).pw = s.pw := rfl
@[simp] theorem State.setGate_sr (s : State) (g : Bool) : (s.setGate g).sr = s.sr := rfl
@[simp] theorem State.setGate_freq (s : State) (g : Bool) : (s.setGate g).freq = s.freq := rfl
@[simp] theorem State.setGate_gate (s : State) (g : Bool) : (s.setGate g).gate = g := rfl
@[simp] theorem State.setGate_snap (s : State) (g : Bool) : (s.setGate g).snap = s.snap := rfl
@[simp] theorem State.setGate_derived (s : State) (g : Bool) : (s.setGate g).derived = s.derived := rfl
@[simp] theorem State.setGate_env1 (s : State) (g : Bool) : (s.setGate g).env1 = s.env1 := rfl
@[simp] theorem State.setGate_env2 (s : State) (g : Bool) : (s.setGate g).env2 = s.env2 := rfl
@[simp] theorem State.setGate_filt (s : State) (g : Bool) : (s.setGate g).filt = s.filt := rfl
@[simp] theorem State.setGate_osc (s : State) (g : Bool) : (s.setGate g).osc = s.osc := rfl
@[simp] theorem State.setGate_lfo (s : State) (g : Bool) : (s.setGate g).lfo = s.lfo := rfl
@[simp] theorem State.setGate_out (s : State) (g : Bool) : (s.setGate g).out = s.out := rfl
@[simp] theorem State.setGate_outs (s : State) (g : Bool) : (s.setGate g).outs = s.outs := rfl
@[simp] theorem State.setGate_vm (s : State) (g : Bool) : (s.setGate g).vm = s.vm := rfl
@[simp] theorem State.setGate_refusalMark (s : State) (g : Bool) : (s.setGate g).refusalMark = s.refusalMark := rfl
@[simp] theorem State.setGate_faultMark (s : State) (g : Bool) : (s.setGate g).faultMark = s.faultMark := rfl
@[simp] theorem State.setGate_port (s : State) (g : Bool) : (s.setGate g).port = s.port := rfl
@[simp] theorem State.setGate_draws (s : State) (g : Bool) : (s.setGate g).draws = s.draws := rfl
@[simp] theorem State.setGate_drawIx (s : State) (g : Bool) : (s.setGate g).drawIx = s.drawIx := rfl

/-! ### `State.emit` -/

@[simp] theorem State.emit_params (s : State) (v : Val) : (s.emit v).params = s.params := rfl
@[simp] theorem State.emit_vInit (s : State) (v : Val) : (s.emit v).vInit = s.vInit := rfl
@[simp] theorem State.emit_vUpd (s : State) (v : Val) : (s.emit v).vUpd = s.vUpd := rfl
@[simp] theorem State.emit_pw (s : State) (v : Val) : (s.emit v).pw = s.pw := rfl
@[simp] theorem State.emit_sr (s : State) (v : Val) : (s.emit v).sr = s.sr := rfl
@[simp] theorem State.emit_freq (s : State) (v : Val) : (s.emit v).freq = s.freq := rfl
@[simp] theorem State.emit_gate (s : State) (v : Val) : (s.emit v).gate = s.gate := rfl
@[simp] theorem State.emit_snap (s : State) (v : Val) : (s.emit v).snap = s.snap := rfl
@[simp] theorem State.emit_derived (s : State) (v : Val) : (s.emit v).derived = s.derived := rfl
@[simp] theorem State.emit_env1 (s : State) (v : Val) : (s.emit v).env1 = s.env1 := rfl
@[simp] theorem State.emit_env2 (s : State) (v : Val) : (s.emit v).env2 = s.env2 := rfl
@[simp] theorem State.emit_filt (s : State) (v : Val) : (s.emit v).filt = s.filt := rfl
@[simp] theorem State.emit_osc (s : State) (v : Val) : (s.emit v).osc = s.osc := rfl
@[simp] theorem State.emit_lfo (s : State) (v : Val) : (s.emit v).lfo = s.lfo := rfl
@[simp] theorem State.emit_out (s : State) (v : Val) : (s.emit v).out = v := rfl
@[simp] theorem State.emit_outs (s : State) (v : Val) : (s.emit v).outs = s.outs ++ [(v, v)] := rfl
@[simp] theorem State.emit_vm (s : State) (v : Val) : (s.emit v).vm = s.vm := rfl
@[simp] theorem State.emit_refusalMark (s : State) (v : Val) : (s.emit v).refusalMark = s.refusalMark := rfl
@[simp] theorem State.emit_faultMark (s : State) (v : Val) : (s.emit v).faultMark = s.faultMark := rfl
@[simp] theorem State.emit_port (s : State) (v : Val) : (s.emit v).port = s.port := rfl
@[simp] theorem State.emit_draws (s : State) (v : Val) : (s.emit v).draws = s.draws := rfl
@[simp] theorem State.emit_drawIx (s : State) (v : Val) : (s.emit v).drawIx = s.drawIx := rfl

/-! ### `State.voiceNoteOn` -/

@[simp] theorem State.voiceNoteOn_params (s : State) (n : Note) : (s.voiceNoteOn n).params = s.params := rfl
@[simp] theorem State.voiceNoteOn_vInit (s : State) (n : Note) : (s.voiceNoteOn n).vInit = s.vInit := rfl
@[simp] theorem State.voiceNoteOn_vUpd (s : State) (n : Note) : (s.voiceNoteOn n).vUpd = s.vUpd := rfl
@[simp] theorem State.voiceNoteOn_pw (s : State) (n : Note) : (s.voiceNoteOn n).pw = s.pw := rfl
@[simp] theorem State.voiceNoteOn_sr (s : State) (n : Note) : (s.voiceNoteOn n).sr = s.sr := rfl
@[simp] theorem State.voiceNoteOn_freq (s : State) (n : Note) : (s.voiceNoteOn n).freq = note2hz s.params n := rfl
@[simp] theorem State.voiceNoteOn_gate (s : State) (n : Note) : (s.voiceNoteOn n).gate = true := rfl
@[simp] theorem State.voiceNoteOn_snap (s : State) (n : Note) : (s.voiceNoteOn n).snap = s.snap := rfl
@[simp] theorem State.voiceNoteOn_derived (s : State) (n : Note) : (s.voiceNoteOn n).derived = s.derived := rfl
@[simp] theorem State.voiceNoteOn_env1 (s : State) (n : Note) : (s.voiceNoteOn n).env1 = env1Retrigger s.params.retrigHard s.env1 := rfl
@[simp] theorem State.voiceNoteOn_env2 (s : State) (n : Note) : (s.voiceNoteOn n).env2 = s.env2 := rfl
@[simp] theorem State.voiceNoteOn_filt (s : State) (n : Note) : (s.voiceNoteOn n).filt = s.filt := rfl
@[simp] theorem State.voiceNoteOn_osc (s : State) (n : Note) : (s.voiceNoteOn n).osc = s.osc := rfl
@[simp] theorem State.voiceNoteOn_lfo (s : State) (n : Note) : (s.voiceNoteOn n).lfo = s.lfo := rfl
@[simp] theorem State.voiceNoteOn_out (s : State) (n : Note) : (s.voiceNoteOn n).out = s.out := rfl
@[simp] theorem State.voiceNoteOn_outs (s : State) (n : Note) : (s.voiceNoteOn n).outs = s.outs := rfl
@[simp] theorem State.voiceNoteOn_vm (s : State) (n : Note) : (s.voiceNoteOn n).vm = s.vm := rfl
@[simp] theorem State.voiceNoteOn_refusalMark (s : State) (n : Note) : (s.voiceNoteOn n).refusalMark = s.refusalMark := rfl
@[simp] theorem State.voiceNoteOn_faultMark (s : State) (n : Note) : (s.voiceNoteOn n).faultMark = s.faultMark := rfl
@[simp] theorem State.voiceNoteOn_port (s : State) (n : Note) : (s.voiceNoteOn n).port = s.port := rfl
@[simp] theorem State.voiceNoteOn_draws (s : State) (n : Note) : (s.voiceNoteOn n).draws = s.draws := rfl
@[simp] theorem State.voiceNoteOn_drawIx (s : State) (n : Note) : (s.voiceNoteOn n).drawIx = s.drawIx := rfl

/-! ### `State.voiceNoteOff` -/

@[simp] theorem State.voiceNoteOff_params (s : State) : (s.voiceNoteOff).params = s.params := rfl
@[simp] theorem State.voiceNoteOff_vInit (s : State) : (s.voiceNoteOff).vInit = s.vInit := rfl
@[simp] theorem State.voiceNoteOff_vUpd (s : State) : (s.voiceNoteOff).vUpd = s.vUpd := rfl
@[simp] theorem State.voiceNoteOff_pw (s : State) : (s.voiceNoteOff).pw = s.pw := rfl
@[simp] theorem State.voiceNoteOff_sr (s : State) : (s.voiceNoteOff).sr = s.sr := rfl
@[simp] theorem State.voiceNoteOff_freq (s : State) : (s.voiceNoteOff).freq = s.freq := rfl
@[simp] theorem State.voiceNoteOff_gate (s : State) : (s.voiceNoteOff).gate = false := rfl
@[simp] theorem State.voiceNoteOff_snap (s : State) : (s.voiceNoteOff).snap = s.snap := rfl
@[simp] theorem State.voiceNoteOff_derived (s : State) : (s.voiceNoteOff).derived = s.derived := rfl
@[simp] theorem State.voiceNoteOff_env1 (s : State) : (s.voiceNoteOff).env1 = s.env1 := rfl
@[simp] theorem State.voiceNoteOff_env2 (s : State) : (s.voiceNoteOff).env2 = s.env2 := rfl
@[simp] theorem State.voiceNoteOff_filt (s : State) : (s.voiceNoteOff).filt = s.filt := rfl
@[simp] theorem State.voiceNoteOff_osc (s : State) : (s.voiceNoteOff).osc = s.osc := rfl
@[simp] theorem State.voiceNoteOff_lfo (s : State) : (s.voiceNoteOff).lfo = s.lfo := rfl
@[simp] theorem State.voiceNoteOff_out (s : State) : (s.voiceNoteOff).out = s.out := rfl
@[simp] theorem State.voiceNoteOff_outs (s : State) : (s.voiceNoteOff).outs = s.outs := rfl
@[simp] theorem State.voiceNoteOff_vm (s : State) : (s.voiceNoteOff).vm = s.vm := rfl
@[simp] theorem State.voiceNoteOff_refusalMark (s : State) : (s.voiceNoteOff).refusalMark = s.refusalMark := rfl
@[simp] theorem State.voiceNoteOff_faultMark (s : State) : (s.voiceNoteOff).faultMark = s.faultMark := rfl
@[simp] theorem State.voiceNoteOff_port (s : State) : (s.voiceNoteOff).port = s.port := rfl
@[simp] theorem State.voiceNoteOff_draws (s : State) : (s.voiceNoteOff).draws = s.draws := rfl
@[simp] theorem State.voiceNoteOff_drawIx (s : State) : (s.voiceNoteOff).drawIx = s.drawIx := rfl

/-! ### `State.update` -/

@[simp] theorem State.update_params (s : State) : (s.update).params = s.params := rfl
@[simp] theorem State.update_vInit (s : State) : (s.update).vInit = s.vInit := rfl
@[simp] theorem State.update_vUpd (s : State) : (s.update).vUpd = true := rfl
@[simp] theorem State.update_pw (s : State) : (s.update).pw = s.pw := rfl
@[simp] theorem State.update_sr (s : State) : (s.update).sr = s.sr := rfl
@[simp] theorem State.update_freq (s : State) : (s.update).freq = s.freq := rfl
@[simp] theorem State.update_gate (s : State) : (s.update).gate = s.gate := rfl
@[simp] theorem State.update_snap (s : State) : (s.update).snap = s.snap := rfl
@[simp] theorem State.update_derived (s : State) : (s.update).derived = derive s.params s.snap := rfl
@[simp] theorem State.update_env1 (s : State) : (s.update).env1 = s.env1 := rfl
@[simp] theorem State.update_env2 (s : State) : (s.update).env2 = s.env2 := rfl
@[simp] theorem State.update_filt (s : State) : (s.update).filt = s.filt.setRes (derive s.params s.snap).filter.reso := rfl
@[simp] theorem State.update_osc (s : State) : (s.update).osc = s.osc := rfl
@[simp] theorem State.update_lfo (s : State) : (s.update).lfo = s.lfo := rfl
@[simp] theorem State.update_out (s : State) : (s.update).out = s.out := rfl
@[simp] theorem State.update_outs (s : State) : (s.update).outs = s.outs := rfl
@[simp] theorem State.update_vm (s : State) : (s.update).vm = s.vm := rfl
@[simp] theorem State.update_refusalMark (s : State) : (s.update).refusalMark = s.refusalMark := rfl
@[simp] theorem State.update_faultMark (s : State) : (s.update).faultMark = s.faultMark := rfl
@[simp] theorem State.update_port (s : State) : (s.update).port = s.port := rfl
@[simp] theorem State.update_draws (s : State) : (s.update).draws = s.draws := rfl
@[simp] theorem State.update_drawIx (s : State) : (s.update).drawIx = s.drawIx := rfl

/-! ### `State.tick` -/

@[simp] theorem State.tick_params (s : State) : (s.tick).params = s.params := rfl
@[simp] theorem State.tick_vInit (s : State) : (s.tick).vInit = s.vInit := rfl
@[simp] theorem State.tick_vUpd (s : State) : (s.tick).vUpd = s.vUpd := rfl
@[simp] theorem State.tick_pw (s : State) : (s.tick).pw = s.pw := rfl
@[simp] theorem State.tick_sr (s : State) : (s.tick).sr = s.sr := rfl
@[simp] theorem State.tick_freq (s : State) : (s.tick).freq = s.freq := rfl
@[simp] theorem State.tick_gate (s : State) : (s.tick).gate = s.gate := rfl
@[simp] theorem State.tick_snap (s : State) : (s.tick).snap = s.snap := rfl
@[simp] theorem State.tick_derived (s : State) : (s.tick).derived = s.derived := rfl
@[simp] theorem State.tick_env1 (s : State) : (s.tick).env1 = (tickEnv s).1 := rfl
@[simp] theorem State.tick_env2 (s : State) : (s.tick).env2 = (tickAmp s).1 := rfl
@[simp] theorem State.tick_filt (s : State) : (s.tick).filt = (tickFilter s).1 := rfl
@[simp] theorem State.tick_osc (s : State) : (s.tick).osc = (tickOsc s).1 := rfl
@[simp] theorem State.tick_lfo (s : State) : (s.tick).lfo = (tickLfo s).1 := rfl
@[simp] theorem State.tick_out (s : State) : (s.tick).out = tickOut s := rfl
@[simp] theorem State.tick_outs (s : State) : (s.tick).outs = s.outs ++ [(tickOut s, tickOut s)] := rfl
@[simp] theorem State.tick_vm (s : State) : (s.tick).vm = s.vm := rfl
@[simp] theorem State.tick_refusalMark (s : State) : (s.tick).refusalMark = s.refusalMark := rfl
@[simp] theorem State.tick_faultMark (s : State) : (s.tick).faultMark = s.faultMark := rfl
@[simp] theorem State.tick_port (s : State) : (s.tick).port = s.port := rfl
@[simp] theorem State.tick_draws (s : State) : (s.tick).draws = s.draws.tail := rfl
@[simp] theorem State.tick_drawIx (s : State) : (s.tick).drawIx = s.drawIx + 1 := rfl

/-! ### `State.init` -/

@[simp] theorem State.init_params (s : State) (r : Val) : (s.init r).params = s.params := rfl
@[simp] theorem State.init_vInit (s : State) (r : Val) : (s.init r).vInit = true := rfl
@[simp] theorem State.init_vUpd (s : State) (r : Val) : (s.init r).vUpd = false := rfl
@[simp] theorem State.init_pw (s : State) (r : Val) : (s.init r).pw = noneWritten := rfl
@[simp] theorem State.init_sr (s : State) (r : Val) : (s.init r).sr = r := rfl
@[simp] theorem State.init_freq (s : State) (r : Val) : (s.init r).freq = s.params.freqInit := rfl
@[simp] theorem State.init_gate (s : State) (r : Val) : (s.init r).gate = false := rfl
@[simp] theorem State.init_snap (s : State) (r : Val) : (s.init r).snap = Vector.replicate 15 0#32 := rfl
@[simp] theorem State.init_derived (s : State) (r : Val) : (s.init r).derived = Derived.noValue := rfl
@[simp] theorem State.init_env1 (s : State) (r : Val) : (s.init r).env1 = envInit s.params.envLaw r := rfl
@[simp] theorem State.init_env2 (s : State) (r : Val) : (s.init r).env2 = envInit s.params.envLaw r := rfl
@[simp] theorem State.init_filt (s : State) (r : Val) : (s.init r).filt = ladderInit s.params.ladder r := rfl
@[simp] theorem State.init_osc (s : State) (r : Val) : (s.init r).osc = oscBankInit s.params.varOsc r := rfl
@[simp] theorem State.init_lfo (s : State) (r : Val) : (s.init r).lfo = lfoInit s.params.lfoGens r := rfl
@[simp] theorem State.init_out (s : State) (r : Val) : (s.init r).out = .rat 0 := rfl
@[simp] theorem State.init_outs (s : State) (r : Val) : (s.init r).outs = [] := rfl
@[simp] theorem State.init_vm (s : State) (r : Val) : (s.init r).vm = if s.params.hasVM then VM.empty else s.vm := rfl
@[simp] theorem State.init_refusalMark (s : State) (r : Val) : (s.init r).refusalMark = s.refusalMark := rfl
@[simp] theorem State.init_faultMark (s : State) (r : Val) : (s.init r).faultMark = s.faultMark := rfl
@[simp] theorem State.init_port (s : State) (r : Val) : (s.init r).port = s.port := rfl
@[simp] theorem State.init_draws (s : State) (r : Val) : (s.init r).draws = s.draws := rfl
@[simp] theorem State.init_drawIx (s : State) (r : Val) : (s.init r).drawIx = s.drawIx := rfl

/-! ### `VM.push` -/

@[simp] theorem VM.push_seq (v : VM) (n : Note) : (v.push n).seq = v.seq ++ [n] := rfl
@[simp] theorem VM.push_held (v : VM) (n : Note) : (v.push n).held = v.held.set n.toNat true n.isLt := rfl
@[simp] theorem VM.push_hcnt (v : VM) (n : Note) : (v.push n).hcnt = v.hcnt + 1 := rfl
@[simp] theorem VM.push_cur (v : VM) (n : Note) : (v.push n).cur = v.cur := rfl
@[simp] theorem VM.push_lastVel (v : VM) (n : Note) : (v.push n).lastVel = v.lastVel := rfl

/-! ### `VM.release` -/

@[simp] theorem VM.release_seq (v : VM) (n : Note) : (v.release n).seq = v.seq := rfl
@[simp] theorem VM.release_held (v : VM) (n : Note) : (v.release n).held = v.held.set n.toNat false n.isLt := rfl
@[simp] theorem VM.release_hcnt (v : VM) (n : Note) : (v.release n).hcnt = v.hcnt - 1 := rfl
@[simp] theorem VM.release_cur (v : VM) (n : Note) : (v.release n).cur = v.cur := rfl
@[simp] theorem VM.release_lastVel (v : VM) (n : Note) : (v.release n).lastVel = v.lastVel := rfl

/-! ### `VM.sound` -/

@[simp] theorem VM.sound_seq (v : VM) (n : Note) (w : Velocity) : (v.sound n w).seq = v.seq := rfl
@[simp] theorem VM.sound_held (v : VM) (n : Note) (w : Velocity) : (v.sound n w).held = v.held := rfl
@[simp] theorem VM.sound_hcnt (v : VM) (n : Note) (w : Velocity) : (v.sound n w).hcnt = v.hcnt := rfl
@[simp] theorem VM.sound_cur (v : VM) (n : Note) (w : Velocity) : (v.sound n w).cur = some n := rfl
@[simp] theorem VM.sound_lastVel (v : VM) (n : Note) (w : Velocity) : (v.sound n w).lastVel = w := rfl

end Sys2Proof.Machine
end

