-- ==== Sys2Proof/Laws/Ops.lean ====
section
/-! SUPPORT. What each shared operation and each command can answer, said once: the provers cite these and do not unfold the meanings. -/

namespace Sys2Proof.Machine

theorem next_eq_next {a t : State} : (Host.Outcome.next a : Result) = .next t ↔ t = a := by
  constructor <;> intro h <;> cases h <;> rfl

/-! ### `require` -/

theorem require_eq_next {c : Bool} {r : Refusal} {k : Result} {t : State} :
    require c r k = .next t ↔ c = true ∧ k = .next t := by
  cases c <;> simp [require]

theorem require_eq_fault {c : Bool} {r : Refusal} {k : Result} {f : Fault} :
    require c r k = .fault f ↔ c = true ∧ k = .fault f := by
  cases c <;> simp [require]

theorem require_eq_refused {c : Bool} {r q : Refusal} {k : Result} :
    require c r k = .refused q ↔ (c = false ∧ q = r) ∨ (c = true ∧ k = .refused q) := by
  cases c <;> simp [require, eq_comm]

@[simp] theorem require_true (r : Refusal) (k : Result) : require true r k = k := rfl

@[simp] theorem require_false (r : Refusal) (k : Result) : require false r k = .refused r := rfl

/-! ### When each command completes, and where -/

theorem execInit_eq_next {sr : Data} {s t : State} :
    execInit sr s = .next t ↔ 1 ≤ u32 sr ∧ t = s.init (.rat (u32 sr)) := by
  simp [execInit, require_eq_next, next_eq_next, -Host.Outcome.next.injEq]

theorem execSetp_eq_next {idx : BitVec 8} {d : Data} {s t : State} :
    execSetp idx d s = .next t ↔ idx.toNat ≤ 14 ∧ s.vInit = true ∧ t = s.writeSnap idx d := by
  simp [execSetp, require_eq_next, next_eq_next, -Host.Outcome.next.injEq]

theorem execUpdate_eq_next {s t : State} :
    execUpdate s = .next t ↔ s.vInit = true ∧ allWritten s.pw = true ∧ u32 (snapWord s.snap .oscMode) ≤ 2 ∧
      selReserved (snapWord s.snap .lfoSel) = 0#29 ∧ t = s.update := by
  simp [execUpdate, require_eq_next, next_eq_next, -Host.Outcome.next.injEq]

theorem execNoteon_eq_next {n : Note} {v : Velocity} {s t : State} :
    execNoteon n v s = .next t ↔ s.vInit = true ∧ t = s.voiceNoteOn n := by
  simp [execNoteon, require_eq_next, next_eq_next, -Host.Outcome.next.injEq]

theorem execNoteoff_eq_next {s t : State} :
    execNoteoff s = .next t ↔ s.vInit = true ∧ t = s.voiceNoteOff := by
  simp [execNoteoff, require_eq_next, next_eq_next, -Host.Outcome.next.injEq]

theorem execTick_eq_next {s t : State} :
    execTick s = .next t ↔ s.vInit = true ∧ s.vUpd = true ∧ t = s.tick := by
  simp [execTick, require_eq_next, next_eq_next, -Host.Outcome.next.injEq]

theorem execBlock_eq_next {n : Data} {s t : State} :
    execBlock n s = .next t ↔ s.vInit = true ∧ s.vUpd = true ∧ t = State.ticks (u32 n) s := by
  simp [execBlock, require_eq_next, next_eq_next, -Host.Outcome.next.injEq]

theorem notePress_eq_next {n : Note} {v : Velocity} {s t : State} :
    notePress n v s = .next t ↔
      (s.vm.isHeld n = true ∧ t = State.voiceNoteOn { s with vm := s.vm.sound n v } n) ∨
      (s.vm.isHeld n = false ∧ s.sp < vmCap ∧ t = State.voiceNoteOn { s with vm := (s.vm.push n).sound n v } n) := by
  unfold notePress
  cases s.vm.isHeld n
  · by_cases h : vmCap ≤ s.sp
    · simp [h, Nat.not_lt.mpr h]
    · simp [h, Nat.lt_of_not_le h, next_eq_next, -Host.Outcome.next.injEq]
  · simp [next_eq_next, -Host.Outcome.next.injEq]

theorem popNote_eq_next {n : Note} {s t : State} :
    popNote n s = .next t ↔
      ((s.vm.release n).hcnt = 0 ∧
        t = State.voiceNoteOff { s with vm := { s.vm.release n with seq := [], cur := none } }) ∨
      ((s.vm.release n).hcnt ≠ 0 ∧ ∃ c, (s.vm.release n).scan.getLast? = some c ∧
        t = State.voiceNoteOn
          { s with vm := { s.vm.release n with seq := (s.vm.release n).scan, cur := some c } } c) := by
  unfold popNote
  by_cases h : (s.vm.release n).hcnt = 0
  · simp only [h, if_true, next_eq_next, ne_eq, not_true, false_and, or_false, true_and]
  · simp only [h, if_false, false_and, false_or, ne_eq, not_false_eq_true, true_and]
    cases (s.vm.release n).scan.getLast? with
    | none => simp
    | some c => simp only [next_eq_next, Option.some.injEq, exists_eq_left']

theorem noteRelease_eq_next {n : Note} {s t : State} :
    noteRelease n s = .next t ↔
      (s.vm.isHeld n = false ∧ t = s) ∨
      (s.vm.isHeld n = true ∧ s.vm.cur = some n ∧ popNote n s = .next t) ∨
      (s.vm.isHeld n = true ∧ s.vm.cur ≠ some n ∧ t = { s with vm := s.vm.release n }) := by
  unfold noteRelease
  cases s.vm.isHeld n
  · simp [next_eq_next, -Host.Outcome.next.injEq]
  · by_cases h : s.vm.cur = some n <;> simp [h, next_eq_next, -Host.Outcome.next.injEq]

theorem execEvnoteon_eq_next {ch : Channel} {n : Note} {v : Velocity} {s t : State} :
    execEvnoteon ch n v s = .next t ↔ s.params.hasVM = true ∧ s.vInit = true ∧
      ((v = 0#7 ∧ noteRelease n s = .next t) ∨ (v ≠ 0#7 ∧ notePress n v s = .next t)) := by
  by_cases h : v = 0#7 <;> simp [execEvnoteon, require_eq_next, h]

theorem execEvnoteoff_eq_next {ch : Channel} {n : Note} {v : Velocity} {s t : State} :
    execEvnoteoff ch n v s = .next t ↔ s.params.hasVM = true ∧ s.vInit = true ∧ noteRelease n s = .next t := by
  simp [execEvnoteoff, require_eq_next]

/-! ### `ticks` -/

theorem ticks_zero (s : State) : State.ticks 0 s = s := rfl

theorem ticks_succ (n : Nat) (s : State) : State.ticks (n + 1) s = State.ticks n s.tick := rfl

/-- What every tick keeps, any number of ticks keeps. -/
theorem ticks_induction {P : State → Prop} (step : ∀ s, P s → P s.tick) : ∀ n s, P s → P (State.ticks n s)
  | 0, _, h => h
  | n + 1, s, h => ticks_induction step n s.tick (step s h)

/-- Any number of ticks changes only what one tick changes. -/
theorem ticks_frame : ∀ (n : Nat) (s : State),
    State.ticks n s =
      { s with
        env1 := (State.ticks n s).env1
        env2 := (State.ticks n s).env2
        filt := (State.ticks n s).filt
        osc := (State.ticks n s).osc
        lfo := (State.ticks n s).lfo
        out := (State.ticks n s).out
        outs := (State.ticks n s).outs
        draws := (State.ticks n s).draws
        drawIx := (State.ticks n s).drawIx }
  | 0, _ => rfl
  | n + 1, s => by
    rw [ticks_succ]
    conv_lhs => rw [ticks_frame n s.tick]
    rfl

/-! ### The commands as exec runs them -/

theorem exec_init_eq_next {sr : Data} {s t : State} :
    exec (.init sr) s = .next t ↔ 1 ≤ u32 sr ∧ t = s.init (.rat (u32 sr)) := execInit_eq_next

theorem exec_setp_eq_next {idx : BitVec 8} {d : Data} {s t : State} :
    exec (.setp idx d) s = .next t ↔ idx.toNat ≤ 14 ∧ s.vInit = true ∧ t = s.writeSnap idx d := execSetp_eq_next

theorem exec_update_eq_next {s t : State} :
    exec .update s = .next t ↔ s.vInit = true ∧ allWritten s.pw = true ∧ u32 (snapWord s.snap .oscMode) ≤ 2 ∧
      selReserved (snapWord s.snap .lfoSel) = 0#29 ∧ t = s.update := execUpdate_eq_next

theorem exec_noteon_eq_next {n : Note} {v : Velocity} {s t : State} :
    exec (.noteon n v) s = .next t ↔ s.vInit = true ∧ t = s.voiceNoteOn n := execNoteon_eq_next (v := v)

theorem exec_noteoff_eq_next {s t : State} :
    exec .noteoff s = .next t ↔ s.vInit = true ∧ t = s.voiceNoteOff := execNoteoff_eq_next

theorem exec_tick_eq_next {s t : State} :
    exec .tick s = .next t ↔ s.vInit = true ∧ s.vUpd = true ∧ t = s.tick := execTick_eq_next

theorem exec_block_eq_next {n : Data} {s t : State} :
    exec (.block n) s = .next t ↔ s.vInit = true ∧ s.vUpd = true ∧ t = State.ticks (u32 n) s := execBlock_eq_next

theorem exec_evnoteon_eq_next {ch : Channel} {n : Note} {v : Velocity} {s t : State} :
    exec (.evnoteon ch n v) s = .next t ↔ s.params.hasVM = true ∧ s.vInit = true ∧
      ((v = 0#7 ∧ noteRelease n s = .next t) ∨ (v ≠ 0#7 ∧ notePress n v s = .next t)) :=
  execEvnoteon_eq_next (ch := ch)

theorem exec_evnoteoff_eq_next {ch : Channel} {n : Note} {v : Velocity} {s t : State} :
    exec (.evnoteoff ch n v) s = .next t ↔ s.params.hasVM = true ∧ s.vInit = true ∧ noteRelease n s = .next t :=
  execEvnoteoff_eq_next (ch := ch) (v := v)

/-! ### The step -/

theorem step_of_port_nil {s : State} (hf : s.faultMark = none) (hr : s.refusalMark = none) (hp : s.port = []) :
    step s = .next s := by
  simp [step, runNext, takeWord, hf, hr, hp]

theorem step_of_port_cons {s : State} {w : Word} {rest : List Word} (hf : s.faultMark = none)
    (hr : s.refusalMark = none) (hp : s.port = w :: rest) : step s = runWord w { s with port := rest } := by
  simp [step, runNext, takeWord, hf, hr, hp]

/-- All a step that completes can have done. -/
theorem step_eq_next {s t : State} (h : step s = .next t) :
    s.faultMark = none ∧ s.refusalMark = none ∧
      ((s.port = [] ∧ t = s) ∨
        ∃ w rest i, s.port = w :: rest ∧ decode w = .ok i ∧ exec i { s with port := rest } = .next t) := by
  have hf : s.faultMark = none := by
    cases hf : s.faultMark with
    | none => rfl
    | some r => simp [step, runNext, hf] at h
  have hr : s.refusalMark = none := by
    cases hr : s.refusalMark with
    | none => rfl
    | some r => simp [step, runNext, hf, hr] at h
  refine ⟨hf, hr, ?_⟩
  rcases hp : s.port with _ | ⟨w, rest⟩
  · rw [step_of_port_nil hf hr hp, next_eq_next] at h
    exact .inl ⟨rfl, h⟩
  · rw [step_of_port_cons hf hr hp] at h
    cases hd : decode w with
    | error e => simp [runWord, hd] at h
    | ok i =>
      rw [runWord, hd] at h
      exact .inr ⟨w, rest, i, rfl, hd, h⟩

end Sys2Proof.Machine
end

