-- ==== Sys2Proof/Safety.lean ====
section
/-! DEFINITION. What counts as a safe run, in the terms the statements use: a run without marks, the invariant of the note-priority stack (46_voice_manager.md R286), and the ranges every register and generator keeps (42_voice.md R185, 43_oscillator.md R211). -/

namespace Sys2Proof.Safety

open Sys2Proof.Machine

/-- A run that carries neither a refusal nor a fault mark (60 R312, R313). -/
def Clean (s : State) : Prop := s.faultMark = none ∧ s.refusalMark = none

/-! ### Ranges -/

/-- In [0, 1]. -/
def InUnit (x : Val) : Prop := 0 ≤ x.real ∧ x.real ≤ 1

/-- In [-1, 1]. -/
def InBip (x : Val) : Prop := -1 ≤ x.real ∧ x.real ≤ 1

/-- A phase, in [0, 1) (40 R112). -/
def InPhase (x : Val) : Prop := 0 ≤ x.real ∧ x.real < 1

/-- In [lo, hi]. -/
def Within (lo hi : ℝ) (x : Val) : Prop := lo ≤ x.real ∧ x.real ≤ hi

/-- The clamp sites of UPDATE (42 R185, 43 R211) and the ranges of the LFO's registers (10 R33, 44 R231). -/
structure DerivedInRange (d : Derived) : Prop where
  baseCut : Within 20 18000 d.filter.baseCut
  reso : Within 0 (93 / 100) d.filter.reso
  drive : Within 1 3 d.filter.drive
  cEnvd : InBip d.filter.cEnvd
  cLfod : InBip d.filter.cLfod
  sus : InUnit d.env.sus
  tAtt : Within (2 / 1000) 2 d.env.tAtt
  tDec : Within (3 / 1000) (3 / 2) d.env.tDec
  tRel : Within (10 / 1000) 3 d.env.tRel
  char : InBip d.osc.char
  envd : InBip d.osc.envd
  lfod : InBip d.osc.lfod
  baseW : InUnit d.osc.baseW
  syncAmt : InUnit d.osc.syncAmt
  foldBase : InUnit d.osc.foldBase
  rateHz : Within (1 / 100) 100 d.lfo.rateHz
  plRatio : Within (1 / 2) 4 d.lfo.plRatio
  randHz : Within 1 50 d.lfo.randHz
  cnRate : InBip d.lfo.cnRate
  gLow : Within 0 2 d.lfo.gLow
  gHigh : Within (1 / 2) (3 / 2) d.lfo.gHigh

/-- The level of a reference envelope is in [0, 1] (10 R40); an arbitrary law's state is its own. -/
def EnvInRange : Env → Prop
  | .ref _ level => InUnit level
  | .own _ _ => True

/-- The phases of a reference oscillator are phases (10 R42). -/
def OscInRange : Gen OscPhases → Prop
  | .ref c => InPhase c.pm ∧ InPhase c.ps
  | .own _ => True

/-- The phase of a reference periodic generator is a phase (10 R43). -/
def PhaseInRange : Gen Val → Prop
  | .ref ph => InPhase ph
  | .own _ => True

/-- A reference sample-and-hold: a phase and a held draw (10 R43, 44 R236). -/
def HoldInRange : Gen HoldCells → Prop
  | .ref c => InPhase c.ph ∧ InBip c.h
  | .own _ => True

/-- A reference interpolated random generator: a phase and two draws (10 R43, 44 R237). -/
def SmoothInRange : Gen SmoothCells → Prop
  | .ref c => InPhase c.ph ∧ InBip c.prev ∧ InBip c.next
  | .own _ => True

/-- The ranges the machine keeps: those of the derived registers and of `FILT.res` once an UPDATE has completed, those of the
reference generators, of the output latch and of every frame of the stream (10, 42 R185, 43 R211). -/
structure RangeInv (s : State) : Prop where
  freqInit : 0 ≤ s.params.freqInit.real
  freq : 0 ≤ s.freq.real
  updInit : s.vUpd = true → s.vInit = true
  updWritten : s.vUpd = true → allWritten s.pw = true
  sampleRate : s.vInit = true → 1 ≤ s.sr.real
  derived : s.vUpd = true → DerivedInRange s.derived
  res : s.vUpd = true → Within 0 (93 / 100) s.filt.res
  env1 : EnvInRange s.env1
  env2 : EnvInRange s.env2
  oscP : OscInRange s.osc.p
  oscS : OscInRange s.osc.s
  oscT : OscInRange s.osc.t
  gSin : PhaseInRange s.lfo.gSin
  gTri : PhaseInRange s.lfo.gTri
  gPl : PhaseInRange s.lfo.gPl
  gSh : HoldInRange s.lfo.gSh
  gSm : SmoothInRange s.lfo.gSm
  out : InBip s.out
  frames : ∀ p ∈ s.outs, p.1 = p.2 ∧ InBip p.1

/-! ### The note-priority stack -/

/-- The invariant of 46 R286 (a) to (c), with the capacity of the sequence (46 R288). -/
structure StackInv (v : VM) : Prop where
  /-- the sequence has at most 128 entries -/
  cap : v.seq.length ≤ 128
  /-- (a) `HCNT` is the number of true cells of `HELD` -/
  count : v.hcnt = v.held.count true
  /-- (b) every held note occurs in the sequence -/
  listed : ∀ n, v.isHeld n = true → n ∈ v.seq
  /-- (c) `CUR` is none iff `HCNT` is 0 -/
  curNone : v.cur = none ↔ v.hcnt = 0
  /-- (c) otherwise the current note is held -/
  curHeld : ∀ c, v.cur = some c → v.isHeld c = true

/-- 46 R286 (d): the gate is open iff some note is held. -/
def GateInv (s : State) : Prop := s.gate = true ↔ 0 < s.vm.hcnt

/-! ### Words the command port refuses -/

/-- The illegal words of 30 R88, bit by bit, for a block with `HAS_VM` (R87: without it, `op` 0x10 and 0x11 are reserved too). -/
def Illegal (w : Word) : Prop :=
  ((Word.op w).toNat = 0x00 ∨ (0x08 ≤ (Word.op w).toNat ∧ (Word.op w).toNat ≤ 0x0F) ∨ 0x12 ≤ (Word.op w).toNat) ∨
  Word.zero w ≠ 0#16 ∨
  (Word.op w ≠ 0x02#8 ∧ Word.idx w ≠ 0#8) ∨
  (Word.op w = 0x02#8 ∧ 15 ≤ (Word.idx w).toNat) ∨
  ((Word.op w = 0x03#8 ∨ Word.op w = 0x05#8 ∨ Word.op w = 0x06#8) ∧ Word.data w ≠ 0#32) ∨
  (Word.op w = 0x01#8 ∧ (Word.data w).toNat = 0) ∨
  (Word.op w = 0x04#8 ∧ ∃ k, (k = 7 ∨ 15 ≤ k ∧ k ≤ 31) ∧ (Word.data w).getLsbD k = true) ∨
  ((Word.op w = 0x10#8 ∨ Word.op w = 0x11#8) ∧
    ∃ k, (k = 7 ∨ k = 15 ∨ 20 ≤ k ∧ k ≤ 31) ∧ (Word.data w).getLsbD k = true)

/-- The side condition of a row of 30 R84 on a word that matches it. -/
def SideCondition (hasVM : Bool) (row : Instr) (w : Word) : Prop :=
  match row with
  | .init _ => 1 ≤ (Word.data w).toNat
  | .setp _ _ => (Word.idx w).toNat ≤ 14
  | .evnoteon _ _ _ | .evnoteoff _ _ _ => hasVM = true
  | .update | .noteon _ _ | .noteoff | .tick | .block _ => True

/-! ### Envelopes over several ticks -/

/-- ENV1 after `n` ticks with the gate held at `g` and its registers unchanged. -/
def envAfter (sr : Val) (e : EnvRegs) (g : Bool) : Nat → Env → Env
  | 0, st => st
  | n + 1, st => envAfter sr e g n (env1Step sr e g st).1

/-- An envelope that has never seen an open gate: at rest, or an arbitrary law's state with no gate seen (45 R260). -/
def NeverGated : Env → Prop
  | .ref stage level => stage = .idle ∧ level.real = 0
  | .own seenGate _ => seenGate = false

/-- The reference sample-and-hold after the ticks that bring these draws, the first draw first (40 R126). -/
def holdAfter (sr rate : Val) (νs : List Val) (c : HoldCells) : HoldCells :=
  νs.foldl (fun c ν => holdStep sr rate ν c) c

end Sys2Proof.Safety
end

