-- ==== Sys2Proof/Laws/Voice.lean ====
section
/-! SUPPORT. The operations of UPDATE and TICK, said once each: the two checks of UPDATE, the draws, the filter's configuration cells, the outputs of arbitrary envelopes, the advance of phases (42_voice.md, 43_oscillator.md, 45_envelopes.md). -/

namespace Sys2Proof.Machine

/-! ### The checks of UPDATE -/

theorem allWritten_eq_true {pw : Vector Bool 15} : allWritten pw = true ↔ ∀ j : Fin 15, pw[j] = true := by
  rw [allWritten, Vector.all_eq_true]
  exact ⟨fun h j => h j.1 j.2, fun h i hi => h ⟨i, hi⟩⟩

theorem selReserved_eq_zero {w : Data} : selReserved w = 0#29 ↔ ∀ k, 3 ≤ k → w.getLsbD k = false := by
  constructor
  · intro h k hk
    rcases Nat.lt_or_ge k 32 with h2 | h2
    · have bit := congrArg (fun z => z.getLsbD (k - 3)) h
      simpa only [selReserved, BitVec.getLsbD_extractLsb', BitVec.getLsbD_zero, show 3 + (k - 3) = k by omega,
        show k - 3 < 29 by omega, decide_true, Bool.true_and] using bit
    · exact BitVec.getLsbD_of_ge _ _ h2
  · intro h
    ext k hk
    simp [selReserved, h (3 + k) (by omega)]

/-! ### Ranges of shared results -/

open Sys2Proof.Safety

theorem clamp_inUnit (v : Val) : InUnit (v.clamp (.rat 0) (.rat 1)) := by
  have lo := Val.le_clamp (v := v) (lo := .rat 0) (hi := .rat 1) (by simp)
  have hi := Val.clamp_le v (.rat 0) (.rat 1)
  simp only [Val.real_rat, Rat.cast_zero, Rat.cast_one] at lo hi
  exact ⟨lo, hi⟩

theorem clamp_inBip (v : Val) : InBip (v.clamp (.rat (-1)) (.rat 1)) := by
  have lo := Val.le_clamp (v := v) (lo := .rat (-1)) (hi := .rat 1) (by norm_num)
  have hi := Val.clamp_le v (.rat (-1)) (.rat 1)
  simp only [Val.real_rat, Rat.cast_neg, Rat.cast_one] at lo hi
  exact ⟨lo, hi⟩

theorem frac_inPhase (v : Val) : InPhase v.frac := ⟨v.frac_nonneg, v.frac_lt_one⟩

/-- The draws of a tick are in [-1, 1], whoever supplies them. -/
theorem nextDraw_inBip (s : State) : InBip (nextDraw s).sh ∧ InBip (nextDraw s).sm ∧ InBip (nextDraw s).cn :=
  ⟨clamp_inBip _, clamp_inBip _, clamp_inBip _⟩

theorem ownEnvOutput_inUnit (seen : Bool) (v : Val) : InUnit (ownEnvOutput seen v) := by
  cases seen
  · simp [ownEnvOutput, InUnit]
  · exact clamp_inUnit v

/-! ### The filter, the oscillators, the envelopes -/

/-- A sample through the filter moves no configuration cell. -/
theorem ladderProcess_frame (m : Prim) (sr : Val) (f : Filter) (x : Val) :
    (ladderProcess m sr f x).1.fc = f.fc ∧ (ladderProcess m sr f x).1.res = f.res := by
  unfold ladderProcess
  split <;> exact ⟨rfl, rfl⟩

/-- A TICK leaves `FILT.res` as UPDATE set it (10 R41). -/
@[simp] theorem tick_filt_res (s : State) : s.tick.filt.res = s.filt.res := (ladderProcess_frame _ _ _ _).2

@[simp] theorem ticks_filt_res (n : Nat) (s : State) : (State.ticks n s).filt.res = s.filt.res :=
  ticks_induction (P := fun t => t.filt.res = s.filt.res) (fun t h => (tick_filt_res t).trans h) n s rfl

/-- The phases of a reference oscillator after any step are phases. -/
theorem advancePhases_inPhase (sr : Val) (c : OscPhases) (x : OscIn) :
    InPhase (advancePhases sr c x).pm ∧ InPhase (advancePhases sr c x).ps := by
  refine ⟨frac_inPhase _, ?_⟩
  simp only [advancePhases]
  split_ifs <;> exact frac_inPhase _

/-- The last of several ticks of ENV1, split off. -/
theorem envAfter_succ (sr : Val) (e : EnvRegs) (g : Bool) :
    ∀ (n : Nat) (st : Env), envAfter sr e g (n + 1) st = (env1Step sr e g (envAfter sr e g n st)).1
  | 0, _ => rfl
  | n + 1, st => by rw [envAfter, envAfter_succ sr e g n]; rfl

end Sys2Proof.Machine
end

