-- ==== Sys2Proof/Laws/VoiceManager.lean ====
section
/-! SUPPORT. The note-priority stack: what one membership write does to the set and its count, what the scan of the pop finds, and all a press or a release can change (46_voice_manager.md R281 to R285). -/

namespace Sys2Proof.Machine

/-! ### The membership set -/

theorem VM.isHeld_setHeld (v : VM) (n m : Note) (b : Bool) :
    (v.setHeld n b).isHeld m = if m = n then b else v.isHeld m := by
  have same : n.toNat = m.toNat ↔ m = n := by rw [BitVec.toNat_inj]; exact eq_comm
  simp [VM.isHeld, VM.setHeld, Vector.getElem_set, same]

theorem VM.isHeld_release (v : VM) (n m : Note) : (v.release n).isHeld m = (m != n && v.isHeld m) := by
  have h : (v.release n).isHeld m = (v.setHeld n false).isHeld m := rfl
  rw [h, VM.isHeld_setHeld]
  by_cases hm : m = n <;> simp [hm]

theorem VM.isHeld_push (v : VM) (n m : Note) : (v.push n).isHeld m = (m == n || v.isHeld m) := by
  have h : (v.push n).isHeld m = (v.setHeld n true).isHeld m := rfl
  rw [h, VM.isHeld_setHeld]
  by_cases hm : m = n <;> simp [hm]

theorem VM.count_pos_of_isHeld {v : VM} {n : Note} (h : v.isHeld n = true) : 0 < v.held.count true := by
  rw [Vector.count_pos_iff]
  exact Eq.subst (motive := fun b => b ∈ v.held) h (Vector.getElem_mem n.isLt)

theorem VM.exists_isHeld_of_count_pos {v : VM} (h : 0 < v.held.count true) : ∃ n, v.isHeld n = true := by
  rw [Vector.count_pos_iff, Vector.mem_iff_getElem] at h
  obtain ⟨i, hi, h⟩ := h
  refine ⟨BitVec.ofNat 7 i, ?_⟩
  have small : i % 128 = i := by omega
  simp [VM.isHeld, small, h]

theorem VM.count_release {v : VM} {n : Note} (h : v.isHeld n = true) :
    (v.release n).held.count true + 1 = v.held.count true := by
  have cell : v.held[n.toNat]'n.isLt = true := h
  have pos := VM.count_pos_of_isHeld h
  have count := Vector.count_set (a := false) (b := true) (i := n.toNat) (xs := v.held) (h := n.isLt)
  simp only [cell, beq_self_eq_true, if_true] at count
  show (v.held.set n.toNat false n.isLt).count true + 1 = _
  rw [count]
  simp only [Bool.false_eq_true, beq_iff_eq, if_false]
  omega

theorem VM.count_push {v : VM} {n : Note} (h : v.isHeld n = false) :
    (v.push n).held.count true = v.held.count true + 1 := by
  have cell : v.held[n.toNat]'n.isLt = false := h
  have count := Vector.count_set (a := true) (b := true) (i := n.toNat) (xs := v.held) (h := n.isLt)
  show (v.held.set n.toNat true n.isLt).count true = _
  rw [count, cell]
  simp

/-! ### The scan of the pop (46 R284) -/

theorem VM.scan_prefix (v : VM) : v.scan <+: v.seq := List.rdropWhile_prefix _ _

/-- The scan drops no held note. -/
theorem VM.mem_scan {v : VM} {n : Note} (hm : n ∈ v.seq) (hh : v.isHeld n = true) : n ∈ v.scan := by
  unfold VM.scan
  generalize v.seq = l at hm ⊢
  induction l using List.reverseRecOn with
  | nil => simp at hm
  | append_singleton l a ih =>
    rw [List.rdropWhile_concat]
    split
    · rename_i hp
      rcases List.mem_append.mp hm with h | h
      · exact ih h
      · rw [List.mem_singleton] at h
        subst h
        simp [hh] at hp
    · exact hm

/-- The entry the scan stops at is held. -/
theorem VM.isHeld_of_getLast?_scan {v : VM} {c : Note} (h : v.scan.getLast? = some c) : v.isHeld c = true := by
  have hne : v.scan ≠ [] := fun h0 => by simp [h0] at h
  have last : ¬(!v.isHeld (v.scan.getLast hne)) = true := List.rdropWhile_last_not _ v.seq hne
  rw [List.getLast?_eq_getLast_of_ne_nil hne, Option.some.injEq] at h
  rw [← h]
  simpa using last

/-! ### All a press or a release can change -/

/-- A release writes nothing but the stack, and the Voice's frequency, gate and envelope; the last velocity stays. -/
theorem noteRelease_frame {n : Note} {s t : State} (h : noteRelease n s = .next t) :
    t = { s with vm := t.vm, freq := t.freq, gate := t.gate, env1 := t.env1 } ∧ t.vm.lastVel = s.vm.lastVel := by
  rw [noteRelease_eq_next] at h
  rcases h with ⟨_, rfl⟩ | ⟨_, _, h⟩ | ⟨_, _, rfl⟩
  · exact ⟨rfl, rfl⟩
  · rw [popNote_eq_next] at h
    rcases h with ⟨_, rfl⟩ | ⟨_, c, _, rfl⟩ <;> exact ⟨rfl, rfl⟩
  · exact ⟨rfl, rfl⟩

/-- A press writes nothing but the stack, and the Voice's frequency, gate and envelope. -/
theorem notePress_frame {n : Note} {v : Velocity} {s t : State} (h : notePress n v s = .next t) :
    t = { s with vm := t.vm, freq := t.freq, gate := t.gate, env1 := t.env1 } := by
  rw [notePress_eq_next] at h
  rcases h with ⟨_, rfl⟩ | ⟨_, _, rfl⟩ <;> rfl

end Sys2Proof.Machine
end

