-- ==== Sys2Proof/Certificates/Slice0/Obligations.lean ====
section
/-! DEFINITION. The statements for the provers, from the numbered rules of spec/. Each docstring names what it formalises; "log n" is notes/assumptions/n.md. -/

open Sys2Proof Sys2Proof.Machine Sys2Proof.Safety

/-! ### Encoding (30_encoding.md) -/

/-- Decoding the encoded word of any well-formed command gives the command back: no operand bit is dropped (30 R82 to R84). -/
def Obligations.DecodeOfEncodeIsIdentity : Prop :=
  ∀ i : Instr, i.wellFormed = true → decode (encode i) = .ok i

/-- A word the decoder accepts is the encoding of the well-formed command it gives: each word has one meaning. -/
def Obligations.DecodeAcceptsOnlyEncodings : Prop :=
  ∀ (w : Word) (i : Instr), decode w = .ok i → i.wellFormed = true ∧ encode i = w

/-- 30 R84: a word spells the command of a row iff it matches the row's mask and pattern and the row's side condition holds,
that of `HAS_VM` included. -/
def Obligations.WordSpellsCommandIffMaskMatches : Prop :=
  ∀ (hasVM : Bool) (w : Word) (row : Instr),
    (∃ i, decode w = .ok i ∧ i.opcode = row.opcode ∧ (i.opcode = 0x10#8 ∨ i.opcode = 0x11#8 → hasVM = true)) ↔
      (w &&& row.mask = row.pattern ∧ SideCondition hasVM row w)

/-- 30 R88 with R87: the decoder refuses exactly the illegal words, and the command port refuses every illegal
word, and EVNOTEON and EVNOTEOFF without `HAS_VM`, leaving everything but the refusal mark as it was. -/
def Obligations.IllegalWordsAreRefused : Prop :=
  (∀ w : Word, Illegal w ↔ ∃ e, decode w = .error e) ∧
  (∀ (w : Word) (s : State), Illegal w →
    runWord w s = .refused .illegalWord ∧
      present s w = { s with refusalMark := s.refusalMark <|> some .illegalWord }) ∧
  (∀ (w : Word) (s : State), ¬ Illegal w → (Word.op w = 0x10#8 ∨ Word.op w = 0x11#8) → s.params.hasVM = false →
    runWord w s = .refused .noVM ∧ present s w = { s with refusalMark := s.refusalMark <|> some .noVM })

/-- The worked encodings of 30 R92 decode to the commands they stand for. -/
def Obligations.WorkedEncodingsDecode : Prop :=
  decode 0x010000000000BB80#64 = .ok (.init 48000#32) ∧
  decode 0x0200000000008000#64 = .ok (.setp 0#8 0x00008000#32) ∧
  decode 0x0204000003E80000#64 = .ok (.setp 4#8 0x03E80000#32) ∧
  decode 0x020E000000000005#64 = .ok (.setp 14#8 5#32) ∧
  decode 0x0300000000000000#64 = .ok .update ∧
  decode 0x0400000000006445#64 = .ok (.noteon 69#7 100#7) ∧
  decode 0x0500000000000000#64 = .ok .noteoff ∧
  decode 0x0600000000000000#64 = .ok .tick ∧
  decode 0x0700000000000040#64 = .ok (.block 64#32) ∧
  decode 0x100000000000643C#64 = .ok (.evnoteon 0#4 60#7 100#7) ∧
  decode 0x1100000000020040#64 = .ok (.evnoteoff 2#4 64#7 0#7)

/-- A command word serialised into bytes and read back, in either byte order, is the same word; byte `k` of the default
order is bits `8k+7 : 8k`, and the other order is its reverse (20 R63, log 14). -/
def Obligations.SerialisedWordReadsBack : Prop :=
  ∀ (o : ByteOrder) (w : Word), (serialise o w).length = 8 ∧ deserialise o (serialise o w) = some w ∧
    serialise .msbFirst w = (serialise .lsbFirst w).reverse ∧
    ∀ k : Nat, k < 8 → (serialise .lsbFirst w)[k]? = some (w.extractLsb' (8 * k) 8)

/-! ### The step and the marks of a run -/

/-- In a run without marks: the next presented word that decodes to `i` is taken from the port and executed; one
that decodes to nothing is refused; with no word presented the block waits (log 9). -/
def Obligations.StepRunsPresentedCommand : Prop :=
  ∀ s : State, Clean s →
    (∀ w rest i, s.port = w :: rest → decode w = .ok i → step s = exec i { s with port := rest }) ∧
    (∀ w rest e, s.port = w :: rest → decode w = .error e → step s = .refused .illegalWord) ∧
    (s.port = [] → step s = .next s)

/-- Marks are sticky (60 R312, R313; log 10): no command that completes changes a mark, INIT included; presenting a
word keeps a mark that is set and sets one when the word is refused or faults, changing nothing else then; and
a run that carries a mark reports it again at every step. -/
def Obligations.MarksAreSticky : Prop :=
  (∀ (i : Instr) (s t : State), exec i s = .next t → t.refusalMark = s.refusalMark ∧ t.faultMark = s.faultMark) ∧
  (∀ (s : State) (w : Word) (f : Fault), s.faultMark = some f → (present s w).faultMark = some f) ∧
  (∀ (s : State) (w : Word) (r : Refusal), s.refusalMark = some r → (present s w).refusalMark = some r) ∧
  (∀ (s : State) (w : Word) (f : Fault), runWord w s = .fault f → s.faultMark = none →
    present s w = { s with faultMark := some f }) ∧
  (∀ (s : State) (w : Word) (r : Refusal), runWord w s = .refused r → s.refusalMark = none →
    present s w = { s with refusalMark := some r }) ∧
  (∀ (s : State) (f : Fault), s.faultMark = some f → step s = .fault f) ∧
  (∀ (s : State) (r : Refusal), s.faultMark = none → s.refusalMark = some r → step s = .refused r)

/-- 60 R312: the closed list of refusals and the order in which they are named, over every word and every state; a refused
word changes nothing but the refusal mark, which keeps its first reason for the rest of the run. -/
def Obligations.RefusalsAreTheClosedList : Prop :=
  (∀ (w : Word) (s : State) (r : Refusal), runWord w s = .refused r ↔
    (Illegal w ∧ r = .illegalWord) ∨
    (¬ Illegal w ∧ (Word.op w = 0x10#8 ∨ Word.op w = 0x11#8) ∧ s.params.hasVM = false ∧ r = .noVM) ∨
    (¬ Illegal w ∧ (Word.op w = 0x10#8 ∨ Word.op w = 0x11#8 → s.params.hasVM = true) ∧ Word.op w ≠ 0x01#8 ∧
      s.vInit = false ∧ r = .notInitialised) ∨
    (¬ Illegal w ∧ Word.op w = 0x03#8 ∧ s.vInit = true ∧ (∃ j : Fin 15, s.pw[j] = false) ∧ r = .snapshotIncomplete) ∨
    (¬ Illegal w ∧ Word.op w = 0x03#8 ∧ s.vInit = true ∧ (∀ j : Fin 15, s.pw[j] = true) ∧ 2 < (s.snap[3]).toNat ∧
      r = .badOscMode) ∨
    (¬ Illegal w ∧ Word.op w = 0x03#8 ∧ s.vInit = true ∧ (∀ j : Fin 15, s.pw[j] = true) ∧ (s.snap[3]).toNat ≤ 2 ∧
      (∃ k, 3 ≤ k ∧ (s.snap[14]).getLsbD k = true) ∧ r = .badLfoSel) ∨
    (¬ Illegal w ∧ (Word.op w = 0x06#8 ∨ Word.op w = 0x07#8) ∧ s.vInit = true ∧ s.vUpd = false ∧ r = .notUpdated)) ∧
  (∀ (w : Word) (s : State) (r : Refusal), runWord w s = .refused r →
    present s w = { s with refusalMark := s.refusalMark <|> some r }) ∧
  (∀ (w : Word) (s : State) (r : Refusal), s.refusalMark = some r → (present s w).refusalMark = some r)

/-- From a state whose note-priority stack keeps its invariant, the only fault of any command is `StackOverflow`, and
it is raised exactly by an EVNOTEON of velocity at least 1 for a note that is not held, at a full sequence (60 R313, 46 R288). -/
def Obligations.OnlyStackOverflowFaults : Prop :=
  ∀ (i : Instr) (s : State) (f : Fault), StackInv s.vm →
    (exec i s = .fault f ↔
      f = .stackOverflow ∧ s.params.hasVM = true ∧ s.vInit = true ∧ s.sp = 128 ∧
        ∃ ch note vel, i = .evnoteon ch note vel ∧ vel ≠ 0#7 ∧ s.vm.isHeld note = false)

/-- Every command other than INIT is refused while `V_INIT` is false, and it is false at power-on (10 R52). -/
def Obligations.CommandsBeforeInitAreRefused : Prop :=
  State.reset.vInit = false ∧ State.reset.outs = [] ∧
  ∀ (i : Instr) (s : State), s.vInit = false → i.wellFormed = true → (∀ sr, i ≠ .init sr) →
    exec i s = .refused
      (if s.params.hasVM = false ∧ (∃ ch note vel, i = .evnoteon ch note vel ∨ i = .evnoteoff ch note vel)
        then .noVM else .notInitialised)

/-! ### INIT, SETP, NOTEON, NOTEOFF (41_lifecycle.md) -/

/-- 41 R150: INIT with a sample rate of at least 1 completes in every state and writes every cell as the rule says; the
envelopes and the LFO generators as their reference instantiations are written. A sample rate 0 is refused. -/
def Obligations.InitResult : Prop :=
  ∀ (sr : Data) (s : State),
    (1 ≤ sr.toNat → ∃ t, exec (.init sr) s = .next t ∧
      t.sr = .rat sr.toNat ∧ t.freq = s.params.freqInit ∧ t.gate = false ∧
      t.vInit = true ∧ t.vUpd = false ∧ (∀ j : Fin 15, t.pw[j] = false) ∧
      (s.params.envLaw = .reference → t.env1 = .ref .idle (.rat 0) ∧ t.env2 = .ref .idle (.rat 0)) ∧
      (s.params.ladder = .reference → t.filt.core = .ref ⟨.rat 0, .rat 0, .rat 0, .rat 0⟩) ∧
      (s.params.ladder = .own → t.filt.core = .own (Config.ladderInit t.sr)) ∧
      (s.params.varOsc = .reference →
        t.osc = ⟨.ref ⟨.rat 0, .rat 0⟩, .ref ⟨.rat 0, .rat 0⟩, .ref ⟨.rat 0, .rat 0⟩⟩) ∧
      (s.params.varOsc = .own →
        t.osc = ⟨.own (Config.oscInit t.sr), .own (Config.oscInit t.sr), .own (Config.oscInit t.sr)⟩) ∧
      (s.params.lfoGens = .reference →
        t.lfo.gSin = .ref (.rat 0) ∧ t.lfo.gTri = .ref (.rat 0) ∧ t.lfo.gPl = .ref (.rat 0) ∧
        t.lfo.gSh = .ref ⟨.rat 0, .rat 0⟩ ∧ t.lfo.gSm = .ref ⟨.rat 0, .rat 0, .rat 0⟩) ∧
      t.lfo.gCn = ⟨.rat 0, .rat 0⟩ ∧ t.out = .rat 0 ∧ t.outs = [] ∧
      (s.params.hasVM = true →
        t.sp = 0 ∧ (∀ n, t.vm.isHeld n = false) ∧ t.vm.hcnt = 0 ∧ t.vm.cur = none ∧ t.vm.lastVel = 0#7) ∧
      (s.params.hasVM = false → t.vm = s.vm)) ∧
    (sr.toNat = 0 → exec (.init sr) s = .refused .illegalWord)

/-- 41 R151: SETP stores the word and its written bit and changes nothing else; a second SETP to the same
register before an UPDATE keeps the last word; it is refused before INIT and for an index above 14. -/
def Obligations.SetpResult : Prop :=
  ∀ (idx : BitVec 8) (data : Data) (s : State),
    (s.vInit = true → idx.toNat ≤ 14 → ∃ t, exec (.setp idx data) s = .next t ∧
      (∀ j : Fin 15, t.snap[j] = if j.val = idx.toNat then data else s.snap[j]) ∧
      (∀ j : Fin 15, t.pw[j] = if j.val = idx.toNat then true else s.pw[j]) ∧
      t = { s with snap := t.snap, pw := t.pw } ∧
      (∀ (data' : Data) (u : State), exec (.setp idx data') t = .next u → exec (.setp idx data') s = .next u)) ∧
    (14 < idx.toNat → exec (.setp idx data) s = .refused .illegalWord) ∧
    (idx.toNat ≤ 14 → s.vInit = false → exec (.setp idx data) s = .refused .notInitialised)

/-- 41 R153 with 45 R263: NOTEON sets `FREQ`, opens the gate and retriggers ENV1 (under the reference law: a new attack from
the current level or, with `RETRIG_HARD`, from 0); nothing else changes and the velocity has no effect; it is refused before INIT. -/
def Obligations.NoteonResult : Prop :=
  ∀ (note : Note) (vel : Velocity) (s : State),
    (s.vInit = true → ∃ t, exec (.noteon note vel) s = .next t ∧
      t.freq = note2hz s.params note ∧ t.gate = true ∧
      t.env1 = env1Retrigger s.params.retrigHard s.env1 ∧
      (∀ stage level, s.env1 = .ref stage level →
        t.env1 = .ref .attack (if s.params.retrigHard then .rat 0 else level)) ∧
      t = { s with freq := t.freq, gate := t.gate, env1 := t.env1 }) ∧
    (s.vInit = false → exec (.noteon note vel) s = .refused .notInitialised)

/-- The model's form of generators the spec leaves to a primitive (log 5): INIT puts an arbitrary one in its own initial state,
a NOTEON retriggers an arbitrary ENV1 in its own way, and neither counts as an open gate seen. -/
def Obligations.ArbitraryGeneratorsStart : Prop :=
  (∀ (sr : Data) (s t : State), exec (.init sr) s = .next t →
    (s.params.envLaw = .own →
      t.env1 = .own false (Config.envInit t.sr) ∧ t.env2 = .own false (Config.envInit t.sr)) ∧
    (s.params.lfoGens = .own →
      t.lfo.gSin = .own (Config.lfoInit .sine t.sr) ∧ t.lfo.gTri = .own (Config.lfoInit .triangle t.sr) ∧
      t.lfo.gPl = .own (Config.lfoInit .pitchLocked t.sr) ∧ t.lfo.gSh = .own (Config.lfoInit .stepped t.sr) ∧
      t.lfo.gSm = .own (Config.lfoInit .smoothed t.sr))) ∧
  (∀ (note : Note) (vel : Velocity) (s t : State) (seen : Bool) (h : Hidden), s.env1 = .own seen h →
    exec (.noteon note vel) s = .next t → t.env1 = .own seen (Config.envRetrigger h))

/-- The default `NOTE2HZ` (41 R155): its formula `440 · EXP2((n − 69)/12)` and, with the ideal functions (log 2), the values
440, 220 and 880 Hz of notes 69, 57 and 81; every `NOTE2HZ`, default or not, is ≥ 0. -/
def Obligations.NoteToFrequency : Prop :=
  (∀ (p : Params) (n : Note), 0 ≤ (note2hz p n).real) ∧
  (∀ p : Params, p.note2hz = .reference → p.math = .reference →
    (∀ (n : Note) (x : Val), x.real = ((n.toNat : ℝ) - 69) / 12 → (note2hz p n).real = 440 * (exp2 .reference x).real) ∧
    (note2hz p 69#7).real = 440 ∧ (note2hz p 57#7).real = 220 ∧ (note2hz p 81#7).real = 880)

/-- 41 R154: NOTEOFF closes the gate and changes nothing else, `FREQ` and ENV1 included; it is refused before INIT. -/
def Obligations.NoteoffResult : Prop :=
  ∀ s : State, (s.vInit = true → exec .noteoff s = .next { s with gate := false }) ∧
    (s.vInit = false → exec .noteoff s = .refused .notInitialised)

/-! ### UPDATE (42_voice.md R170 to R173, 43 R200, R201, 44 R230, R231) -/

/-- 42 R170: with `V_INIT`, every `PW[i]`, a legal timbre mode and no reserved selector bit UPDATE completes; it
rewrites the derived registers wholesale from the snapshot, `FILT.res` and `V_UPD` and changes nothing else, no generator
state included; a second UPDATE leaves the same state. In every other case it is refused, before any write. -/
def Obligations.UpdateResult : Prop :=
  ∀ s : State,
    (s.vInit = true → (∀ j : Fin 15, s.pw[j] = true) → (s.snap[3]).toNat ≤ 2 →
      (∀ k, 3 ≤ k → (s.snap[14]).getLsbD k = false) →
      ∃ t, exec .update s = .next t ∧ t.vUpd = true ∧ t.filt.res = t.derived.filter.reso ∧
        t = { s with derived := t.derived, filt := { s.filt with res := t.filt.res }, vUpd := true } ∧
        exec .update t = .next t ∧
        ∀ u v : State, u.snap = s.snap → u.params = s.params → exec .update u = .next v → v.derived = t.derived) ∧
    (s.vInit = false → exec .update s = .refused .notInitialised) ∧
    (s.vInit = true → (∃ j : Fin 15, s.pw[j] = false) → exec .update s = .refused .snapshotIncomplete) ∧
    (s.vInit = true → (∀ j : Fin 15, s.pw[j] = true) → 2 < (s.snap[3]).toNat →
      exec .update s = .refused .badOscMode) ∧
    (s.vInit = true → (∀ j : Fin 15, s.pw[j] = true) → (s.snap[3]).toNat ≤ 2 →
      (∃ k, 3 ≤ k ∧ (s.snap[14]).getLsbD k = true) → exec .update s = .refused .badLfoSel)

/-- 42 R171: the filter registers from `P[4]` to `P[7]`, and `FILT.res`; and 30 R85: how a snapshot word is read, as a
two's-complement integer over 65536, at its least and greatest values too. -/
def Obligations.UpdateFilterRegisters : Prop :=
  (∀ w : Data, (q16 w).real = (w.toInt : ℝ) / 65536) ∧
  ((q16 0x00010000#32).real = 1 ∧ (q16 0xFFFF0000#32).real = -1 ∧ (q16 0x7FFFFFFF#32).real = 32768 - 1 / 65536 ∧
    (q16 0x80000000#32).real = -32768) ∧
  ∀ s t : State, exec .update s = .next t →
    t.derived.filter.baseCut.real = min (max (q16 s.snap[4]).real 20) 18000 ∧
    t.derived.filter.reso.real = min (max (q16 s.snap[5]).real 0) (93 / 100) ∧
    t.filt.res = t.derived.filter.reso ∧
    t.derived.filter.drive.real = min (1 + 4 * t.derived.filter.reso.real * t.derived.filter.reso.real) 3 ∧
    1 ≤ t.derived.filter.drive.real ∧ t.derived.filter.drive.real ≤ 3 ∧
    t.derived.filter.cEnvd.real = min (max (q16 s.snap[6]).real (-1)) 1 ∧
    t.derived.filter.cLfod.real = min (max (q16 s.snap[7]).real (-1)) 1

/-- 42 R172: the envelope registers from `P[8]` to `P[11]`, each knob clamped to [0, 1] and mapped by
`tMin·(tMax/tMin)^(knob^curve)`; with the knobs at 0 and below the times are exactly the least, at 1 and above exactly the greatest. -/
def Obligations.UpdateEnvelopeRegisters : Prop :=
  ∀ s t : State, exec .update s = .next t →
    t.derived.env.sus.real = min (max (q16 s.snap[10]).real 0) 1 ∧
    (∀ k : Val, k.real = min (max (q16 s.snap[8]).real 0) 1 → t.derived.env.tAtt.real =
      2 / 1000 * (pow s.params.math (.rat (2 / (2 / 1000))) (pow s.params.math k (.rat (7 / 10)))).real) ∧
    (∀ k : Val, k.real = min (max (q16 s.snap[9]).real 0) 1 → t.derived.env.tDec.real =
      3 / 1000 * (pow s.params.math (.rat (3 / 2 / (3 / 1000))) (pow s.params.math k (.rat (1 / 2)))).real) ∧
    (∀ k : Val, k.real = min (max (q16 s.snap[11]).real 0) 1 → t.derived.env.tRel.real =
      10 / 1000 * (pow s.params.math (.rat (3 / (10 / 1000))) (pow s.params.math k (.rat (1 / 2)))).real) ∧
    ((q16 s.snap[8]).real ≤ 0 → t.derived.env.tAtt.real = 2 / 1000) ∧
    ((1 : ℝ) ≤ (q16 s.snap[8]).real → t.derived.env.tAtt.real = 2) ∧
    ((q16 s.snap[9]).real ≤ 0 → t.derived.env.tDec.real = 3 / 1000) ∧
    ((1 : ℝ) ≤ (q16 s.snap[9]).real → t.derived.env.tDec.real = 3 / 2) ∧
    ((q16 s.snap[11]).real ≤ 0 → t.derived.env.tRel.real = 10 / 1000) ∧
    ((1 : ℝ) ≤ (q16 s.snap[11]).real → t.derived.env.tRel.real = 3)

/-- 43 R200, R201 and 42 R173: the oscillator registers from `P[0]` to `P[3]`, whatever the mode, and `A_MODE`, stored
unchecked from `P[12]`; UPDATE completes with no other timbre mode than 0, 1 and 2. -/
def Obligations.UpdateOscillatorRegisters : Prop :=
  ∀ s t : State, exec .update s = .next t →
    t.derived.osc.char.real = min (max (q16 s.snap[0]).real (-1)) 1 ∧
    t.derived.osc.envd.real = min (max (q16 s.snap[1]).real (-1)) 1 ∧
    t.derived.osc.lfod.real = min (max (q16 s.snap[2]).real (-1)) 1 ∧
    ((s.snap[3] = 0#32 ∧ t.derived.osc.mode = .pulse) ∨
      (s.snap[3] = 1#32 ∧ t.derived.osc.mode = .sawPair) ∨
      (s.snap[3] = 2#32 ∧ t.derived.osc.mode = .triDig)) ∧
    t.derived.osc.baseW.real = (t.derived.osc.char.real + 1) / 2 ∧
    t.derived.osc.syncAmt.real = max t.derived.osc.char.real 0 ∧
    t.derived.osc.foldBase.real = max (-t.derived.osc.char.real) 0 ∧
    t.derived.aMode = s.snap[12]

/-- 44 R230: the eight combinations of S, A, B, the two with A and B both set under either reading `LFO_AB`; UPDATE completes
only with the other selector bits clear. -/
def Obligations.UpdateLfoMode : Prop :=
  ∀ s t : State, exec .update s = .next t →
    (∀ k, 3 ≤ k → (s.snap[14]).getLsbD k = false) ∧
    t.derived.lfo.mode =
      match (s.snap[14]).getLsbD 0, (s.snap[14]).getLsbD 1, (s.snap[14]).getLsbD 2, s.params.lfoAB with
      | true, true, false, _ => .sine
      | true, true, true, .firstRow => .sine
      | true, true, true, .catchAll => .smoothed
      | true, false, true, _ => .pitchLocked
      | true, false, false, _ => .triangle
      | false, true, false, _ => .stepped
      | false, true, true, .firstRow => .stepped
      | false, true, true, .catchAll => .smoothed
      | false, false, true, _ => .colored
      | false, false, false, _ => .smoothed

/-- 44 R231: the rate registers from the clamped knob `P[13]`, whatever the mode, with the end points of the knob exact, and
the exact middle values 0.1, 1 and 10 Hz of `L_RATEHZ` under the ideal functions (log 2). -/
def Obligations.UpdateLfoRates : Prop :=
  ∀ s t : State, exec .update s = .next t → ∀ k : Val, k.real = min (max (q16 s.snap[13]).real 0) 1 →
    t.derived.lfo.rateHz.real = 1 / 100 * (pow s.params.math (.rat (100 / (1 / 100))) k).real ∧
    t.derived.lfo.plRatio.real = 1 / 2 * (pow s.params.math (.rat (4 / (1 / 2))) k).real ∧
    (∀ q : Val, q.real = k.real * k.real → t.derived.lfo.randHz.real = 1 * (pow s.params.math (.rat (50 / 1)) q).real) ∧
    t.derived.lfo.cnRate.real = (2 * k.real - 1) * (2 * k.real - 1) * (2 * k.real - 1) ∧
    t.derived.lfo.gLow.real = max 0 (1 - t.derived.lfo.cnRate.real) ∧
    t.derived.lfo.gHigh.real = max 0 (1 + 1 / 2 * t.derived.lfo.cnRate.real) ∧
    (k.real = 0 → t.derived.lfo.rateHz.real = 1 / 100 ∧ t.derived.lfo.plRatio.real = 1 / 2 ∧ t.derived.lfo.randHz.real = 1) ∧
    (k.real = 1 → t.derived.lfo.rateHz.real = 100 ∧ t.derived.lfo.plRatio.real = 4 ∧ t.derived.lfo.randHz.real = 50) ∧
    (s.params.math = .reference → (k.real = 1 / 4 → t.derived.lfo.rateHz.real = 1 / 10) ∧
      (k.real = 1 / 2 → t.derived.lfo.rateHz.real = 1) ∧ (k.real = 3 / 4 → t.derived.lfo.rateHz.real = 10))

/-- After any UPDATE, whatever the fifteen snapshot words, every clamp site is within its bound, and neither gain of the colored
noise is ever held at 0 by its `max` (inferences of 42 R185, 43 R211, 44 R231). -/
def Obligations.ClampSitesHoldForEverySnapshot : Prop :=
  ∀ s t : State, exec .update s = .next t → DerivedInRange t.derived ∧
    t.derived.lfo.gLow.real = 1 - t.derived.lfo.cnRate.real ∧
    t.derived.lfo.gHigh.real = 1 + t.derived.lfo.cnRate.real / 2

/-! ### Pure functions (40_primitives.md) -/

/-- 40 R114: the ADSR time map is strictly increasing in the knob, exactly `tMin` at 0 and `tMax` at 1, within them between. -/
def Obligations.AdsrTimeMap : Prop :=
  ∀ (m : Prim) (tMin tMax c : Val), 0 < tMin.real → tMin.real < tMax.real → 0 < c.real →
    (∀ k q : Val, 0 ≤ k.real → q.real = tMax.real / tMin.real →
      (adsrTime m k tMin tMax c).real = tMin.real * (pow m q (pow m k c)).real) ∧
    (∀ k : Val, k.real = 0 → (adsrTime m k tMin tMax c).real = tMin.real) ∧
    (∀ k : Val, k.real = 1 → (adsrTime m k tMin tMax c).real = tMax.real) ∧
    (∀ k k' : Val, 0 ≤ k.real → k.real < k'.real → k'.real ≤ 1 →
      (adsrTime m k tMin tMax c).real < (adsrTime m k' tMin tMax c).real) ∧
    (∀ k : Val, InUnit k → tMin.real ≤ (adsrTime m k tMin tMax c).real ∧ (adsrTime m k tMin tMax c).real ≤ tMax.real)

/-- 40 R113: the exponential knob map and its end points. -/
def Obligations.ExpMapEndpoints : Prop :=
  ∀ (m : Prim) (lo hi : Val), 0 < lo.real → lo.real < hi.real →
    (∀ k q : Val, q.real = hi.real / lo.real → (expmap m k lo hi).real = lo.real * (pow m q k).real) ∧
    (∀ k : Val, k.real = 0 → (expmap m k lo hi).real = lo.real) ∧
    (∀ k : Val, k.real = 1 → (expmap m k lo hi).real = hi.real)

/-- 40 R115: the soft clip is odd, non-decreasing and bounded in [-1, 1] for every admissible limiter; the default is the
printed rational function of the clamped input, ±1 outside [-3, 3]. -/
def Obligations.SoftClipProperties : Prop :=
  (∀ (p : Prim) (x y : Val), y.real = -x.real → (softClip p y).real = -(softClip p x).real) ∧
  (∀ (p : Prim) (x : Val), InBip (softClip p x)) ∧
  (∀ (p : Prim) (x y : Val), x.real ≤ y.real → (softClip p x).real ≤ (softClip p y).real) ∧
  (∀ x : Val, -3 ≤ x.real → x.real ≤ 3 →
    (softClip .reference x).real = x.real * (27 + x.real * x.real) / (27 + 9 * (x.real * x.real))) ∧
  (∀ x : Val, (3 ≤ x.real → (softClip .reference x).real = 1) ∧ (x.real ≤ -3 → (softClip .reference x).real = -1))

/-- 40 R116: `tri4` is the period-4 triangle that is the identity on [-1, 1]; the wavefold keeps in-range samples at amount
0, maps every sample into [-1, 1] and is odd. -/
def Obligations.WavefoldProperties : Prop :=
  (∀ u v : Val, v.real = u.real + 4 → (tri4 v).real = (tri4 u).real) ∧
  (∀ u : Val, InBip (tri4 u)) ∧
  (∀ u : Val, -1 ≤ u.real → u.real ≤ 1 → (tri4 u).real = u.real) ∧
  (∀ u : Val, 1 ≤ u.real → u.real ≤ 3 → (tri4 u).real = 2 - u.real) ∧
  (∀ u : Val, 3 ≤ u.real → u.real ≤ 5 → (tri4 u).real = u.real - 4) ∧
  (∀ s a u : Val, u.real = s.real * (1 + 12 * a.real) → (fold s a).real = (tri4 u).real) ∧
  (∀ s a : Val, InBip (fold s a) ∧ ∀ s' : Val, s'.real = -s.real → (fold s' a).real = -(fold s a).real) ∧
  (∀ s a : Val, a.real = 0 → InBip s → (fold s a).real = s.real)

/-- 40 R117: the blend cross-fades linearly from the identity over SHAPE1 and SHAPE2 to SHAPE3, the stages at 0, 1/3, 2/3
and 1; the reference shapes are the printed formulas. -/
def Obligations.ShapeBlendStages : Prop :=
  (∀ (p : Prim) (s h : Val), 0 ≤ h.real → h.real ≤ 1 / 3 →
    (shapeBlend p s h).real = (1 - 3 * h.real) * s.real + 3 * h.real * (shape1 p s).real) ∧
  (∀ (p : Prim) (s h : Val), 1 / 3 ≤ h.real → h.real ≤ 2 / 3 →
    (shapeBlend p s h).real = (2 - 3 * h.real) * (shape1 p s).real + (3 * h.real - 1) * (shape2 p s).real) ∧
  (∀ (p : Prim) (s h : Val), 2 / 3 ≤ h.real → h.real ≤ 1 →
    (shapeBlend p s h).real = (3 - 3 * h.real) * (shape2 p s).real + (3 * h.real - 2) * (shape3 p s).real) ∧
  (∀ s : Val, (shape1 .reference s).real = 3 / 2 * min (max s.real (-1)) 1 - 1 / 2 * min (max s.real (-1)) 1 ^ 3) ∧
  (∀ s : Val, (shape2 .reference s).real = s.real / (1 + |s.real|)) ∧
  (∀ s : Val, (0 ≤ s.real → (shape3 .reference s).real = (shape1 .reference s).real) ∧
    (s.real < 0 → (shape3 .reference s).real = s.real))

/-- 40 R118: the morph map sends [0, 1] into [0, 1], every one of them; the reference map is `1 − m/2`, which with the reference
oscillator gives the rising sawtooth at 0 and the triangle at 1. -/
def Obligations.SawMorphWidth : Prop :=
  (∀ (p : Prim) (m : Val), InUnit m → InUnit (sawMorphPw p m)) ∧
  (∀ m : Val, (sawMorphPw .reference m).real = 1 - m.real / 2) ∧
  (∀ ph m : Val, InPhase ph →
    (m.real = 0 → (waveOut .sawMorph (sawMorphPw .reference m) ph).real = -1 + 2 * ph.real) ∧
    (m.real = 1 → ∀ w : Val, (waveOut .sawMorph (sawMorphPw .reference m) ph).real = (waveOut .triangle w ph).real))

/-- 40 R121: the reference oscillator: the sample taken before the phases advance, the master phase, the output phase with and
without hard sync; the phases stay in [0, 1) and the sample in [-1, 1]; with `fs` = `f` the output phase equals the master
phase at every tick, whether synchronised or not. -/
def Obligations.ReferenceOscillator : Prop :=
  (∀ (sr pm ps f : Val) (wave : Wave) (pw fs : Val) (sync : Bool),
    ∃ pm' ps' y, oscStep sr (.ref ⟨pm, ps⟩) ⟨f, wave, pw, sync, fs⟩ = (.ref ⟨pm', ps'⟩, y) ∧
      pm'.real = Int.fract (pm.real + f.real / sr.real) ∧
      (sync = false → ps'.real = Int.fract (pm.real + f.real / sr.real)) ∧
      (sync = true → pm.real + f.real / sr.real < 1 → ps'.real = Int.fract (ps.real + fs.real / sr.real)) ∧
      (sync = true → 1 ≤ pm.real + f.real / sr.real →
        ps'.real = Int.fract (Int.fract (pm.real + f.real / sr.real) * fs.real / f.real)) ∧
      (wave = .square → (ps.real < pw.real → y.real = 1) ∧ (pw.real ≤ ps.real → y.real = -1)) ∧
      (wave = .sawMorph → (ps.real < pw.real → y.real = -1 + 2 * ps.real / pw.real) ∧
        (pw.real ≤ ps.real → y.real = 1 - 2 * (ps.real - pw.real) / (1 - pw.real))) ∧
      (wave = .triangle → (ps.real < 1 / 2 → y.real = -1 + 4 * ps.real) ∧ (1 / 2 ≤ ps.real → y.real = 3 - 4 * ps.real)) ∧
      (InPhase ps → InBip y) ∧ InPhase pm' ∧ InPhase ps') ∧
  (∀ (sr pm ps f : Val) (wave : Wave) (pw fs : Val) (sync : Bool),
    0 < sr.real → 0 ≤ f.real → InPhase pm → ps.real = pm.real → fs.real = f.real →
    ∃ pm' ps', (oscStep sr (.ref ⟨pm, ps⟩) ⟨f, wave, pw, sync, fs⟩).1 = .ref ⟨pm', ps'⟩ ∧ ps'.real = pm'.real)

/-- 40 R123: the reference ladder: four one-pole stages, each from the new value of the one before, with feedback from the last. -/
def Obligations.ReferenceLadder : Prop :=
  ∀ (m : Prim) (sr fc res x a b c d : Val),
    ∃ a' b' c' d' g e : Val, ladderProcess m sr ⟨fc, res, .ref ⟨a, b, c, d⟩⟩ x = (⟨fc, res, .ref ⟨a', b', c', d'⟩⟩, d') ∧
      e.real = -2 * (pi m).real * fc.real / sr.real ∧ g.real = 1 - (exp m e).real ∧
      a'.real = a.real + g.real * (x.real - 4 * res.real * d.real - a.real) ∧
      b'.real = b.real + g.real * (a'.real - b.real) ∧
      c'.real = c.real + g.real * (b'.real - c.real) ∧
      d'.real = d.real + g.real * (c'.real - d.real)

/-! ### TICK (42_voice.md R175 to R183) -/

/-- 42 R175: with `V_INIT` and `V_UPD` TICK completes, and its next state is the nine-step pipeline, run on three draws in
[-1, 1]; of the model's own fields it moves on those the draws come from (log 6), and nothing else changes; it is refused
before INIT and before an UPDATE. -/
def Obligations.TickResult : Prop :=
  ∀ s : State,
    (s.vInit = true → s.vUpd = true → ∃ (ν : Draw) (octaves cutoff driven product : Val),
      InBip ν.sh ∧ InBip ν.sm ∧ InBip ν.cn ∧
      (let d := s.derived
       let e := env1Step s.sr d.env s.gate s.env1
       let l := lfoStep s.params s.sr d.lfo s.freq ν s.lfo
       let o := oscProcess s.params s.sr d.osc s.freq e.2 l.2 s.osc
       let f := ladderProcess s.params.math s.sr { s.filt with fc := cutoff } driven
       let a := if d.aMode.toNat = 0 then (s.env2, e.2) else if d.aMode.toNat = 1 then (s.env2, .rat 1)
         else if d.aMode.toNat = 2 then env2Step s.sr d.env.tRel s.gate s.env2 else (s.env2, .rat 0)
       let out := softClip s.params.softClip product
       octaves.real = e.2.real * d.filter.cEnvd.real * 5 + l.2.real * d.filter.cLfod.real * 5 ∧
       cutoff.real = min (max (d.filter.baseCut.real * (exp2 s.params.math octaves).real) 20) 18000 ∧
       driven.real = o.2.real * d.filter.drive.real ∧
       product.real = f.2.real * a.2.real ∧
       exec .tick s = .next { s with env1 := e.1, lfo := l.1, osc := o.1, filt := f.1, env2 := a.1, out := out,
                                     outs := s.outs ++ [(out, out)], draws := s.draws.tail, drawIx := s.drawIx + 1 })) ∧
    (s.vInit = false → exec .tick s = .refused .notInitialised) ∧
    (s.vInit = true → s.vUpd = false → exec .tick s = .refused .notUpdated)

/-- The model's choice of where draws come from (log 6): with draws supplied, in [-1, 1], a TICK uses the first of them and leaves
the rest to the next TICK. -/
def Obligations.SuppliedDrawsAreUsed : Prop :=
  ∀ (s t : State) (d : Draw) (rest : List Draw), s.draws = d :: rest → InBip d.sh → InBip d.sm → InBip d.cn →
    exec .tick s = .next t →
    t.lfo = (lfoStep s.params s.sr s.derived.lfo s.freq d s.lfo).1 ∧
    t.filt.fc = cutoffLaw s.params.math s.derived.filter (env1Step s.sr s.derived.env s.gate s.env1).2
      (lfoStep s.params s.sr s.derived.lfo s.freq d s.lfo).2 ∧
    t.draws = rest

/-- 42 R182, R183: whatever the filter returns, the output lies in [-1, 1]; it is 0 where the amplitude is 0; TICK appends
exactly one frame, whose two channels are equal to the output. -/
def Obligations.OutputIsBoundedAndDual : Prop :=
  ∀ s t : State, exec .tick s = .next t →
    (∃ x : Val, x.real = (tickFilter s).2.real * (tickAmp s).2.real ∧ t.out = softClip s.params.softClip x) ∧ InBip t.out ∧
    ((tickAmp s).2.real = 0 → t.out.real = 0) ∧ t.outs = s.outs ++ [(t.out, t.out)]

/-- 42 R181: the amplitude by `A_MODE`: the envelope in ADSR; 1 in drone, whatever the gate and the envelope; the
release-only envelope in mode 2; silence in every other mode; ENV2 advances in mode 2 and in no other. -/
def Obligations.AmplitudeModes : Prop :=
  ∀ s t : State, exec .tick s = .next t → ∃ x : Val, t.out = softClip s.params.softClip x ∧
    (s.derived.aMode = 0#32 → x.real = (tickFilter s).2.real * (tickEnv s).2.real) ∧
    (s.derived.aMode = 1#32 → x.real = (tickFilter s).2.real) ∧
    (s.derived.aMode = 2#32 →
      t.env2 = (env2Step s.sr s.derived.env.tRel s.gate s.env2).1 ∧
      x.real = (tickFilter s).2.real * (env2Step s.sr s.derived.env.tRel s.gate s.env2).2.real) ∧
    (2 < s.derived.aMode.toNat → t.out.real = 0) ∧
    (s.derived.aMode ≠ 2#32 → t.env2 = s.env2)

/-- 42 R178: the filter's cutoff after a TICK is the octave-space law of the tick's `env` and `lfo`, clamped to 20..18000 Hz; the
envelope term is at most 5 octaves either way, and so is the LFO term whenever `lfo` is in [-1, 1]. -/
def Obligations.CutoffLaw : Prop :=
  ∀ s t : State, exec .tick s = .next t →
    (∃ x : Val, x.real = (tickEnv s).2.real * s.derived.filter.cEnvd.real * 5
        + (tickLfo s).2.real * s.derived.filter.cLfod.real * 5 ∧
      t.filt.fc.real = min (max (s.derived.filter.baseCut.real * (exp2 s.params.math x).real) 20) 18000) ∧
    Within 20 18000 t.filt.fc ∧ t.filt.res = s.filt.res ∧
    (InUnit (tickEnv s).2 → InBip s.derived.filter.cEnvd →
      |(tickEnv s).2.real * s.derived.filter.cEnvd.real * 5| ≤ 5) ∧
    (InBip (tickLfo s).2 → InBip s.derived.filter.cLfod →
      |(tickLfo s).2.real * s.derived.filter.cLfod.real * 5| ≤ 5)

/-- 70 R341: while the gate has never been open since INIT, every sample in the amplitude modes ADSR and release-only is 0,
whatever the filter, the oscillator and the envelope law do. -/
def Obligations.SilentUntilFirstNote : Prop :=
  ∀ (n : Data) (s t : State), 0 < s.sr.real → 0 < s.derived.env.tRel.real →
    NeverGated s.env1 → NeverGated s.env2 → s.gate = false →
    (s.derived.aMode = 0#32 ∨ s.derived.aMode = 2#32) → exec (.block n) s = .next t →
    (∃ frames, t.outs = s.outs ++ frames ∧ frames.length = n.toNat ∧ ∀ p ∈ frames, p.1.real = 0 ∧ p.2.real = 0) ∧
    NeverGated t.env1 ∧ NeverGated t.env2

/-- 20 R71: TICK and BLOCK read no snapshot register: with other snapshot words and written bits they do the same,
and leave those words and bits as they are. -/
def Obligations.AudioReadsNoSnapshot : Prop :=
  ∀ (i : Instr) (s t : State) (snap : Vector Data 15) (pw : Vector Bool 15), (i = .tick ∨ ∃ n, i = .block n) →
    exec i s = .next t →
    t.snap = s.snap ∧ t.pw = s.pw ∧
      exec i { s with snap := snap, pw := pw } = .next { t with snap := snap, pw := pw }

/-! ### The Oscillator Engine (43_oscillator.md) -/

/-- 43 R202 to R208: the sample and the new oscillator states of each timbre mode; only the oscillator of the selected mode advances. -/
def Obligations.OscillatorModes : Prop :=
  ∀ (p : Params) (sr f env lfo : Val) (r : OscRegs) (b : OscBank),
    (r.mode = .pulse → ∃ w : Val,
      w.real = min (max (r.baseW.real + env.real * r.envd.real + lfo.real * r.lfod.real) 0) 1 ∧
      oscProcess p sr r f env lfo b =
        (let o := oscStep sr b.p ⟨f, .square, w, false, f⟩
         (⟨o.1, b.s, b.t⟩, o.2))) ∧
    (r.mode = .sawPair → ∃ h a : Val,
      h.real = min (max (r.char.real + env.real * r.envd.real + lfo.real * r.lfod.real) 0) 1 ∧
      a.real = min |r.char.real + env.real * r.envd.real + lfo.real * r.lfod.real| 1 ∧
      oscProcess p sr r f env lfo b =
        (let o := oscStep sr b.s ⟨f, .sawMorph, sawMorphPw p.sawMorph a, false, f⟩
         (⟨b.p, o.1, b.t⟩, fold (shapeBlend p.shapes o.2 h) a))) ∧
    (r.mode = .triDig → r.char.real = 0 → oscProcess p sr r f env lfo b =
      (let o := oscStep sr b.t ⟨f, .triangle, .rat (1 / 2), true, f⟩
       (⟨b.p, b.s, o.1⟩, o.2))) ∧
    (r.mode = .triDig → 0 < r.char.real → ∃ e fs : Val,
      e.real = min (max (r.syncAmt.real * 5 + env.real * r.envd.real * 5 * 38 / 12 + lfo.real * r.lfod.real * 5) 0) 5 ∧
      fs.real = f.real * (exp2 p.math e).real ∧
      oscProcess p sr r f env lfo b =
        (let o := oscStep sr b.t ⟨f, .triangle, .rat (1 / 2), true, fs⟩
         (⟨b.p, b.s, o.1⟩, o.2))) ∧
    (r.mode = .triDig → r.char.real < 0 → ∃ a : Val,
      a.real = min (max (r.foldBase.real + env.real * r.envd.real + lfo.real * r.lfod.real) 0) 1 ∧
      oscProcess p sr r f env lfo b =
        (let o := oscStep sr b.t ⟨f, .triangle, .rat (1 / 2), true, f⟩
         (⟨b.p, b.s, o.1⟩, fold o.2 a)))

/-- The audio-rate clamp sites of the engine (43 R211): the exponent in [0, 5], the ratio at least 1 and, with the ideal
`EXP2` (log 2), at most 32; the pulse width, harmonics, timbre and fold amounts in [0, 1]. -/
def Obligations.OscillatorClampSites : Prop :=
  ∀ (r : OscRegs) (env lfo : Val) (m : Prim),
    Within 0 5 (syncExponent r env lfo) ∧ 1 ≤ (syncRatio m r env lfo).real ∧ (syncRatio .reference r env lfo).real ≤ 32 ∧
    InUnit (pulseWidth r env lfo) ∧ InUnit (harmonics (sawPosition r env lfo)) ∧
    InUnit (timbreAmt (sawPosition r env lfo)) ∧ InUnit (foldAmount r env lfo)

/-- With reference oscillators in range every timbre mode returns a sample in [-1, 1], whatever the shapes, and modes that
end in the wavefold do so with any oscillator (43 R210). -/
def Obligations.OscillatorOutputRange : Prop :=
  ∀ (p : Params) (sr f env lfo : Val) (r : OscRegs) (b : OscBank),
    ((∃ c, b.p = .ref c ∧ InPhase c.ps) → (∃ c, b.t = .ref c ∧ InPhase c.ps) →
      InBip (oscProcess p sr r f env lfo b).2) ∧
    ((r.mode = .sawPair ∨ (r.mode = .triDig ∧ r.char.real < 0)) → InBip (oscProcess p sr r f env lfo b).2)

/-! ### The Modulation Source (44_lfo.md) -/

/-- 44 R232 to R238 with 40 R124: every generator advances at every step, whatever the mode, and the output is that of the
selected one. A reference generator moves as its rule says, and the three periodic ones give [-1, 1]; an arbitrary one in its
place (log 5) takes its own step with its rate and its draw. -/
def Obligations.LfoGeneratorsAdvance : Prop :=
  ∀ (p : Params) (sr nf : Val) (r : LfoRegs) (ν : Draw) (b t : LfoBank) (o : Val), lfoStep p sr r nf ν b = (t, o) →
    (∀ a, b.gSin = .ref a →
      (∃ a', t.gSin = .ref a' ∧ a'.real = Int.fract (a.real + r.rateHz.real / sr.real)) ∧
      (r.mode = .sine → o = sint p.math a ∧ InBip o)) ∧
    (∀ h, b.gSin = .own h →
      t.gSin = .own (Config.lfoStep .sine sr r.rateHz (.rat 0) h).1 ∧
      (r.mode = .sine → o = (Config.lfoStep .sine sr r.rateHz (.rat 0) h).2)) ∧
    (∀ a, b.gTri = .ref a →
      (∃ a', t.gTri = .ref a' ∧ a'.real = Int.fract (a.real + r.rateHz.real / sr.real)) ∧
      (r.mode = .triangle → InBip o ∧ ∃ u : Val, u.real = 4 * a.real ∧ o = tri4 u)) ∧
    (∀ h, b.gTri = .own h →
      t.gTri = .own (Config.lfoStep .triangle sr r.rateHz (.rat 0) h).1 ∧
      (r.mode = .triangle → o = (Config.lfoStep .triangle sr r.rateHz (.rat 0) h).2)) ∧
    (∀ a, b.gPl = .ref a →
      (∃ a', t.gPl = .ref a' ∧ a'.real = Int.fract (a.real + min (nf.real * r.plRatio.real) 20000 / sr.real)) ∧
      (r.mode = .pitchLocked → o = sint p.math a ∧ InBip o)) ∧
    (∀ h, b.gPl = .own h → ∃ f : Val, f.real = min (nf.real * r.plRatio.real) 20000 ∧
      t.gPl = .own (Config.lfoStep .pitchLocked sr f (.rat 0) h).1 ∧
      (r.mode = .pitchLocked → o = (Config.lfoStep .pitchLocked sr f (.rat 0) h).2)) ∧
    (∀ d h, b.gSh = .ref ⟨d, h⟩ →
      (d.real + r.randHz.real / sr.real < 1 → (r.mode = .stepped → o = h) ∧
        ∃ d', t.gSh = .ref ⟨d', h⟩ ∧ d'.real = d.real + r.randHz.real / sr.real) ∧
      (1 ≤ d.real + r.randHz.real / sr.real → (r.mode = .stepped → o = ν.sh) ∧
        ∃ d', t.gSh = .ref ⟨d', ν.sh⟩ ∧ d'.real = Int.fract (d.real + r.randHz.real / sr.real))) ∧
    (∀ h, b.gSh = .own h →
      t.gSh = .own (Config.lfoStep .stepped sr r.randHz ν.sh h).1 ∧
      (r.mode = .stepped → o = (Config.lfoStep .stepped sr r.randHz ν.sh h).2)) ∧
    (∀ d v x, b.gSm = .ref ⟨d, v, x⟩ →
      (d.real + r.randHz.real / sr.real < 1 →
        (r.mode = .smoothed → o.real = v.real + (x.real - v.real) * (d.real + r.randHz.real / sr.real)) ∧
        ∃ d', t.gSm = .ref ⟨d', v, x⟩ ∧ d'.real = d.real + r.randHz.real / sr.real) ∧
      (1 ≤ d.real + r.randHz.real / sr.real →
        (r.mode = .smoothed →
          o.real = x.real + (ν.sm.real - x.real) * Int.fract (d.real + r.randHz.real / sr.real)) ∧
        ∃ d', t.gSm = .ref ⟨d', x, ν.sm⟩ ∧ d'.real = Int.fract (d.real + r.randHz.real / sr.real))) ∧
    (∀ h, b.gSm = .own h →
      t.gSm = .own (Config.lfoStep .smoothed sr r.randHz ν.sm h).1 ∧
      (r.mode = .smoothed → o = (Config.lfoStep .smoothed sr r.randHz ν.sm h).2)) ∧
    t.gCn.y1 = onePole p.onePole p.math sr b.gCn.y1 ν.cn ∧ t.gCn.y2 = onePole p.onePole p.math sr b.gCn.y2 t.gCn.y1 ∧
    (r.mode = .colored →
      o.real = 1 / 2 * (r.gLow.real * t.gCn.y2.real + r.gHigh.real * (ν.cn.real - t.gCn.y1.real))) ∧
    (p.onePole = .reference → ∀ y u e : Val, e.real = -2 * (pi p.math).real * 200 / sr.real →
      (onePole p.onePole p.math sr y u).real = y.real + (1 - (exp p.math e).real) * (u.real - y.real))

/-- 40 R126: the reference sample-and-hold: the clock phase, the new value when it wraps; from init the held value is 0 for
fewer than `⌈SR/rate⌉` ticks, and the draw of tick `⌈SR/rate⌉` at it. -/
def Obligations.SampleAndHold : Prop :=
  (∀ (sr rate ν ph h : Val),
    (ph.real + rate.real / sr.real < 1 → ∃ ph', holdStep sr rate ν ⟨ph, h⟩ = ⟨ph', h⟩ ∧
      ph'.real = ph.real + rate.real / sr.real) ∧
    (1 ≤ ph.real + rate.real / sr.real → ∃ ph', holdStep sr rate ν ⟨ph, h⟩ = ⟨ph', ν⟩ ∧
      ph'.real = Int.fract (ph.real + rate.real / sr.real))) ∧
  (∀ (sr rate : Val) (νs : List Val), 0 < sr.real → 0 < rate.real →
    (νs.length < ⌈sr.real / rate.real⌉₊ → (holdAfter sr rate νs ⟨.rat 0, .rat 0⟩).h.real = 0) ∧
    (νs.length = ⌈sr.real / rate.real⌉₊ → some (holdAfter sr rate νs ⟨.rat 0, .rat 0⟩).h = νs.getLast?))

/-- The range of the LFO (44 R240): with reference generators in range the output lies in [-1, 1] in the modes other than
Colored; in Colored mode, with the reference one-pole and the ideal functions (log 2), in [-1.5, 1.5], and its cells stay in
[-1, 1]. -/
def Obligations.LfoOutputRange : Prop :=
  ∀ (p : Params) (sr nf : Val) (r : LfoRegs) (ν : Draw) (b : LfoBank), 0 < sr.real →
    InBip ν.sh → InBip ν.sm → InBip ν.cn → 0 ≤ r.randHz.real →
    (∃ x, b.gSin = .ref x) → (∃ x, b.gTri = .ref x) → (∃ x, b.gPl = .ref x) →
    (∃ c, b.gSh = .ref c ∧ InPhase c.ph ∧ InBip c.h) →
    (∃ c, b.gSm = .ref c ∧ InPhase c.ph ∧ InBip c.prev ∧ InBip c.next) →
    (r.mode ≠ .colored → InBip (lfoStep p sr r nf ν b).2) ∧
    (p.onePole = .reference → p.math = .reference → InBip b.gCn.y1 → InBip b.gCn.y2 →
      InBip (lfoStep p sr r nf ν b).1.gCn.y1 ∧ InBip (lfoStep p sr r nf ν b).1.gCn.y2 ∧
      (r.mode = .colored → InBip r.cnRate → r.gLow.real = 1 - r.cnRate.real → r.gHigh.real = 1 + r.cnRate.real / 2 →
        Within (-3 / 2) (3 / 2) (lfoStep p sr r nf ν b).2))

/-! ### The envelopes (45_envelopes.md) -/

/-- 45 R261: the reference ENV1. One step, stage by stage, for an open and a closed gate; the level stays in [0, 1]; and the
segment lengths in ticks: from rest the attack takes `⌈T_ATT·SR⌉`, rising by equal steps; the decay `⌈T_DEC·SR⌉` when
`SUS` < 1 and 1 when `SUS` = 1; the release from level `l` takes `⌈l·T_REL·SR⌉`. -/
def Obligations.EnvelopeLaw : Prop :=
  (∀ (sr l : Val) (e : EnvRegs),
    (∀ st, st = .idle ∨ st = .release ∨ st = .attack → ∃ st' l', env1Step sr e true (.ref st l) = (.ref st' l', l') ∧
      l'.real = min 1 (l.real + 1 / (e.tAtt.real * sr.real)) ∧
      (l'.real = 1 → st' = .decay) ∧ (l'.real ≠ 1 → st' = .attack)) ∧
    (l.real - (1 - e.sus.real) / (e.tDec.real * sr.real) ≤ e.sus.real →
      env1Step sr e true (.ref .decay l) = (.ref .sustain e.sus, e.sus)) ∧
    (e.sus.real < l.real - (1 - e.sus.real) / (e.tDec.real * sr.real) →
      ∃ l', env1Step sr e true (.ref .decay l) = (.ref .decay l', l') ∧
        l'.real = l.real - (1 - e.sus.real) / (e.tDec.real * sr.real)) ∧
    (env1Step sr e true (.ref .sustain l) = (.ref .sustain e.sus, e.sus)) ∧
    (∀ st, st ≠ .idle → ∃ st' l', env1Step sr e false (.ref st l) = (.ref st' l', l') ∧
      l'.real = max 0 (l.real - 1 / (e.tRel.real * sr.real)) ∧
      (l'.real = 0 → st' = .idle) ∧ (l'.real ≠ 0 → st' = .release)) ∧
    (env1Step sr e false (.ref .idle l) = (.ref .idle (.rat 0), .rat 0))) ∧
  (∀ (sr l : Val) (e : EnvRegs) (g : Bool) (st : Stage), 0 < sr.real → 0 < e.tAtt.real → 0 < e.tDec.real → 0 < e.tRel.real →
    InUnit e.sus → InUnit l → InUnit (env1Step sr e g (.ref st l)).2) ∧
  (∀ (sr l : Val) (e : EnvRegs), 0 < sr.real →
    (0 < e.tAtt.real → l.real = 0 →
      (∃ l', envAfter sr e true ⌈e.tAtt.real * sr.real⌉₊ (.ref .idle l) = .ref .decay l' ∧ l'.real = 1) ∧
      ∀ k : Nat, 0 < k → k < ⌈e.tAtt.real * sr.real⌉₊ →
        ∃ l', envAfter sr e true k (.ref .idle l) = .ref .attack l' ∧ l'.real = k / (e.tAtt.real * sr.real)) ∧
    (0 < e.tDec.real → l.real = 1 → e.sus.real < 1 →
      envAfter sr e true ⌈e.tDec.real * sr.real⌉₊ (.ref .decay l) = .ref .sustain e.sus ∧
      ∀ k : Nat, k < ⌈e.tDec.real * sr.real⌉₊ →
        ∃ l', envAfter sr e true k (.ref .decay l) = .ref .decay l' ∧
          l'.real = 1 - k * (1 - e.sus.real) / (e.tDec.real * sr.real)) ∧
    (l.real = 1 → e.sus.real = 1 → envAfter sr e true 1 (.ref .decay l) = .ref .sustain e.sus) ∧
    (0 < e.tRel.real → 0 < l.real →
      (∃ l', envAfter sr e false ⌈l.real * e.tRel.real * sr.real⌉₊ (.ref .release l) = .ref .idle l' ∧ l'.real = 0) ∧
      ∀ k : Nat, k < ⌈l.real * e.tRel.real * sr.real⌉₊ →
        ∃ l', envAfter sr e false k (.ref .release l) = .ref .release l' ∧
          l'.real = l.real - k / (e.tRel.real * sr.real) ∧ 0 < l'.real))

/-- 45 R265 and the contract of R260: the reference ENV2 gives 1 while the gate is open and the release segment while it is
closed; an arbitrary law's output is in [0, 1], and 0 while it has never seen an open gate. -/
def Obligations.ReleaseOnlyEnvelope : Prop :=
  (∀ (sr tRel l : Val) (st : Stage), env2Step sr tRel true (.ref st l) = (.ref .sustain (.rat 1), .rat 1)) ∧
  (∀ (sr tRel l : Val) (st : Stage), ∃ st' l', env2Step sr tRel false (.ref st l) = (.ref st' l', l') ∧
    l'.real = max 0 (l.real - 1 / (tRel.real * sr.real)) ∧
    (l'.real = 0 → st' = .idle) ∧ (l'.real ≠ 0 → st' = .release)) ∧
  (∀ (sr : Val) (e : EnvRegs) (g seen : Bool) (h : Hidden),
    InUnit (env1Step sr e g (.own seen h)).2 ∧ InUnit (env2Step sr e.tRel g (.own seen h)).2 ∧
    (seen = false → g = false →
      (env1Step sr e g (.own seen h)).2.real = 0 ∧ (env2Step sr e.tRel g (.own seen h)).2.real = 0))

/-- With the registers and levels in range the outputs of both envelopes are in [0, 1] (45 R264 (e), R260). -/
def Obligations.EnvelopeOutputRange : Prop :=
  ∀ s : State, 1 ≤ s.sr.real → DerivedInRange s.derived → EnvInRange s.env1 → EnvInRange s.env2 →
    InUnit (tickEnv s).2 ∧ InUnit (tickAmp s).2 ∧ EnvInRange (tickEnv s).1 ∧ EnvInRange (tickAmp s).1

/-! ### BLOCK (42_voice.md R184) -/

/-- 42 R184: BLOCK 0 changes nothing; BLOCK n+1 is one TICK and then BLOCK n; BLOCK n appends exactly n frames, and the
gate, the frequency and the derived registers are constant throughout; it is refused as TICK is, also for n = 0. -/
def Obligations.BlockIsTicks : Prop :=
  ∀ s : State,
    (s.vInit = true → s.vUpd = true →
      exec (.block 0#32) s = .next s ∧
      (∀ n : Nat, n + 1 < 2 ^ 32 → ∃ t, exec .tick s = .next t ∧
        exec (.block (BitVec.ofNat 32 (n + 1))) s = exec (.block (BitVec.ofNat 32 n)) t) ∧
      (∀ n : Data, ∃ t, exec (.block n) s = .next t ∧ t.outs.length = s.outs.length + n.toNat ∧
        s.outs <+: t.outs ∧
        t = { s with env1 := t.env1, env2 := t.env2, filt := t.filt, osc := t.osc, lfo := t.lfo, out := t.out,
                     outs := t.outs, draws := t.draws, drawIx := t.drawIx })) ∧
    (∀ n : Data, s.vInit = false → exec (.block n) s = .refused .notInitialised) ∧
    (∀ n : Data, s.vInit = true → s.vUpd = false → exec (.block n) s = .refused .notUpdated)

/-! ### Extension VM (46_voice_manager.md) -/

/-- 46 R281: EVNOTEON with velocity at least 1 pushes a note that is not held, re-asserts a held one without a push, makes it
current, remembers the velocity and retriggers the Voice; nothing else changes; a push onto a full sequence faults. -/
def Obligations.NotePressResult : Prop :=
  ∀ (ch : Channel) (note : Note) (vel : Velocity) (s : State), s.params.hasVM = true → s.vInit = true → vel ≠ 0#7 →
    (s.vm.isHeld note = true ∨ s.vm.seq.length < 128 → ∃ t, exec (.evnoteon ch note vel) s = .next t ∧
      t.vm.cur = some note ∧ t.vm.lastVel = vel ∧ t.freq = note2hz s.params note ∧ t.gate = true ∧
      t.env1 = env1Retrigger s.params.retrigHard s.env1 ∧
      (∀ n, t.vm.isHeld n = (n == note || s.vm.isHeld n)) ∧
      (s.vm.isHeld note = true → t.vm.seq = s.vm.seq ∧ t.vm.hcnt = s.vm.hcnt) ∧
      (s.vm.isHeld note = false → t.vm.seq = s.vm.seq ++ [note] ∧ t.vm.hcnt = s.vm.hcnt + 1) ∧
      t = { s with vm := t.vm, freq := t.freq, gate := t.gate, env1 := t.env1 }) ∧
    (s.vm.isHeld note = false → s.vm.seq.length = 128 → exec (.evnoteon ch note vel) s = .fault .stackOverflow)

/-- 46 R282: EVNOTEON with velocity 0 behaves exactly as EVNOTEOFF of the note, whatever the release velocity and the
channels; it does not change `LASTVEL`. -/
def Obligations.VelocityZeroIsNoteOff : Prop :=
  ∀ (ch ch' : Channel) (note : Note) (vel : Velocity) (s : State),
    exec (.evnoteon ch note 0#7) s = exec (.evnoteoff ch' note vel) s ∧
    ∀ t, exec (.evnoteon ch note 0#7) s = .next t → t.vm.lastVel = s.vm.lastVel

/-- 46 R283: releasing a note that is not held changes nothing; releasing the current note pops it; releasing a held note that is
not current takes it out of the set and the count and changes nothing else, not the sequence, not the Voice. It is
refused before INIT. -/
def Obligations.NoteReleaseResult : Prop :=
  ∀ (ch : Channel) (note : Note) (vel : Velocity) (s : State), s.params.hasVM = true →
    (s.vInit = false → exec (.evnoteoff ch note vel) s = .refused .notInitialised) ∧
    (s.vInit = true → s.vm.isHeld note = false → exec (.evnoteoff ch note vel) s = .next s) ∧
    (s.vInit = true → s.vm.isHeld note = true → s.vm.cur = some note →
      exec (.evnoteoff ch note vel) s = popNote note s) ∧
    (s.vInit = true → s.vm.isHeld note = true → s.vm.cur ≠ some note → ∃ t, exec (.evnoteoff ch note vel) s = .next t ∧
      (∀ n, t.vm.isHeld n = (n != note && s.vm.isHeld n)) ∧ t.vm.hcnt = s.vm.hcnt - 1 ∧
      t.vm.seq = s.vm.seq ∧ t.vm.cur = s.vm.cur ∧ t.vm.lastVel = s.vm.lastVel ∧ t = { s with vm := t.vm })

/-- 46 R284: from a state whose stack keeps its invariant, releasing the current note pops it. If it was the last held note the
stack becomes empty and the gate closes. Else the topmost entry that is still held becomes current and top, what lies
above it is trimmed, and the Voice is retriggered at it; the last velocity stays. -/
def Obligations.PopFindsTopmostHeldNote : Prop :=
  ∀ (ch : Channel) (note : Note) (vel : Velocity) (s : State), s.params.hasVM = true → s.vInit = true →
    StackInv s.vm → s.vm.cur = some note →
    ∃ t, exec (.evnoteoff ch note vel) s = .next t ∧
      (∀ n, t.vm.isHeld n = (n != note && s.vm.isHeld n)) ∧ t.vm.hcnt = s.vm.hcnt - 1 ∧
      t.vm.lastVel = s.vm.lastVel ∧
      (s.vm.hcnt = 1 → t.vm.seq = [] ∧ t.vm.cur = none ∧ t = { s with vm := t.vm, gate := false }) ∧
      (s.vm.hcnt ≠ 1 → ∃ (i : Nat) (c : Note), s.vm.seq[i]? = some c ∧ t.vm.isHeld c = true ∧
        (∀ (j : Nat) (n : Note), i < j → s.vm.seq[j]? = some n → t.vm.isHeld n = false) ∧
        t.vm.seq = s.vm.seq.take (i + 1) ∧ t.vm.cur = some c ∧
        t = { s with vm := t.vm, freq := note2hz s.params c, gate := true,
                     env1 := env1Retrigger s.params.retrigHard s.env1 })

/-- The invariant of the note-priority stack (46 R286 (a) to (c), with the capacity): every step keeps it. -/
def Obligations.StackInvariantIsKept : Prop :=
  ∀ s t : State, StackInv s.vm → step s = .next t → StackInv t.vm

/-- 46 R286 (d): with `HAS_VM`, every command but NOTEON and NOTEOFF keeps "the gate is open iff some note is held", from a
state whose stack keeps its invariant. -/
def Obligations.GateFollowsTheStack : Prop :=
  ∀ (i : Instr) (s t : State), s.params.hasVM = true → StackInv s.vm → GateInv s →
    (∀ note vel, i ≠ .noteon note vel) → i ≠ .noteoff → exec i s = .next t → GateInv t

/-! ### Rules about the whole machine -/

/-- 10 R47: only EVNOTEON, EVNOTEOFF and INIT write the cells of extension VM, and the Voice's frequency and gate are written
by INIT and the four note commands alone. -/
def Obligations.OnlyManagerWritesTheStack : Prop :=
  ∀ (i : Instr) (s t : State), exec i s = .next t →
    (t.vm ≠ s.vm →
      (∃ sr, i = .init sr) ∨ (∃ ch note vel, i = .evnoteon ch note vel) ∨ (∃ ch note vel, i = .evnoteoff ch note vel)) ∧
    (t.freq ≠ s.freq ∨ t.gate ≠ s.gate →
      (∃ sr, i = .init sr) ∨ (∃ note vel, i = .noteon note vel) ∨ i = .noteoff ∨
      (∃ ch note vel, i = .evnoteon ch note vel) ∨ (∃ ch note vel, i = .evnoteoff ch note vel))

/-- The writers of the shared cells, over all commands: the derived registers, `V_UPD` and `FILT.res` by UPDATE and INIT alone
(10 R33, R41); the snapshot and its written bits by SETP and INIT alone (30 R94); the stream, `OUT`, the filter's other cells, the oscillators, the
LFO generators and ENV2 by TICK, BLOCK and INIT alone; the gate and the frequency by INIT and the note commands alone (10 R24, R25);
ENV1 by TICK, BLOCK, INIT and the note-ons and releases that retrigger it (10 R40); `SR` and `V_INIT` by INIT alone. The supplied
draws and their counter, the model's own fields (log 6), are moved by TICK and BLOCK alone. -/
def Obligations.WritersOfEachRegister : Prop :=
  ∀ (i : Instr) (s t : State), exec i s = .next t → (∀ sr, i ≠ .init sr) →
    (i ≠ .update → t.derived = s.derived ∧ t.vUpd = s.vUpd ∧ t.filt.res = s.filt.res) ∧
    ((∀ idx data, i ≠ .setp idx data) → t.snap = s.snap ∧ t.pw = s.pw) ∧
    (i ≠ .tick → (∀ n, i ≠ .block n) →
      t.outs = s.outs ∧ t.out = s.out ∧ t.osc = s.osc ∧ t.lfo = s.lfo ∧ t.env2 = s.env2 ∧
      t.filt.core = s.filt.core ∧ t.filt.fc = s.filt.fc ∧ t.draws = s.draws ∧ t.drawIx = s.drawIx) ∧
    ((∀ note vel, i ≠ .noteon note vel) → i ≠ .noteoff → (∀ ch note vel, i ≠ .evnoteon ch note vel) →
      (∀ ch note vel, i ≠ .evnoteoff ch note vel) → t.gate = s.gate ∧ t.freq = s.freq) ∧
    (i ≠ .tick → (∀ n, i ≠ .block n) → (∀ note vel, i ≠ .noteon note vel) → (∀ ch note vel, i ≠ .evnoteon ch note vel) →
      (∀ ch note vel, i ≠ .evnoteoff ch note vel) → t.env1 = s.env1) ∧
    t.sr = s.sr ∧ t.vInit = s.vInit

/-- The model's own fields (log 3, 6, 9): no command writes the parameters or the words the host is still to present, and only
TICK and BLOCK use up draws. -/
def Obligations.ParametersAreFixed : Prop :=
  ∀ (i : Instr) (s t : State), exec i s = .next t → t.params = s.params ∧ t.port = s.port ∧
    (i ≠ .tick → (∀ n, i ≠ .block n) → t.draws = s.draws ∧ t.drawIx = s.drawIx)

/-- The range invariant of the machine (10, 42 R185, 43 R211, 40 R112): every step keeps it, for every word presented and every
draw: phases stay phases, levels and samples stay in range, the derived registers and `FILT.res` stay within their clamps once
an UPDATE has completed, and the two channels of every frame are equal. -/
def Obligations.RangesAreKept : Prop :=
  ∀ s t : State, RangeInv s → step s = .next t → RangeInv t

/-- The power-on state meets both invariants. -/
def Obligations.ResetMeetsTheInvariants : Prop :=
  RangeInv State.reset ∧ StackInv State.reset.vm ∧ GateInv State.reset ∧ Clean State.reset
end

