-- ==== Sys2Proof/Tests/Slice0.lean ====
section
/-! SUPPORT. The model's own tests: ill-formed terms, decoding from words written out bit by bit, the spec's worked examples one step each, and for every statement with hypotheses a witness that meets them. -/

namespace Sys2Proof.Tests

open Sys2Proof Sys2Proof.Machine Sys2Proof.Safety

/-! ### Well-formedness: each check refuses an ill-formed term (30 R84, R88) -/

theorem test_wf_init_rate_zero : Instr.wellFormed (.init 0#32) = false := by decide
theorem test_wf_init_rate_one : Instr.wellFormed (.init 1#32) = true := by decide
theorem test_wf_setp_index_15 : Instr.wellFormed (.setp 15#8 0#32) = false := by decide
theorem test_wf_setp_index_14 : Instr.wellFormed (.setp 14#8 0xFFFFFFFF#32) = true := by decide

/-! ### Decoding: one word per command, bit by bit from the field tables of 30 R82, R83 -/

/-- op 00000001, idx 0, zero 0, data = 48000 (30 R92). -/
theorem test_decode_init :
    decode 0b0000000100000000000000000000000000000000000000001011101110000000#64 = .ok (.init 48000#32) := by decide
/-- op 00000010, idx 00001110 (14), data 5 = S|B. -/
theorem test_decode_setp :
    decode 0b0000001000001110000000000000000000000000000000000000000000000101#64 = .ok (.setp 14#8 5#32) := by decide
/-- op 00000011, all else zero. -/
theorem test_decode_update :
    decode 0b0000001100000000000000000000000000000000000000000000000000000000#64 = .ok .update := by decide
/-- op 00000100, velocity 1100100 (100) at bits 14:8, note 1000101 (69) at bits 6:0. -/
theorem test_decode_noteon :
    decode 0b0000010000000000000000000000000000000000000000000110010001000101#64 = .ok (.noteon 69#7 100#7) := by decide
/-- op 00000101. -/
theorem test_decode_noteoff :
    decode 0b0000010100000000000000000000000000000000000000000000000000000000#64 = .ok .noteoff := by decide
/-- op 00000110. -/
theorem test_decode_tick :
    decode 0b0000011000000000000000000000000000000000000000000000000000000000#64 = .ok .tick := by decide
/-- op 00000111, data 64. -/
theorem test_decode_block :
    decode 0b0000011100000000000000000000000000000000000000000000000001000000#64 = .ok (.block 64#32) := by decide
/-- op 00010000, channel 1111 (15) at bits 19:16, velocity 1111111 (127), note 1111111 (127). -/
theorem test_decode_evnoteon :
    decode 0b0001000000000000000000000000000000000000000011110111111101111111#64 = .ok (.evnoteon 15#4 127#7 127#7) := by
  decide
/-- op 00010001, channel 0010 (2), velocity 0, note 1000000 (64). -/
theorem test_decode_evnoteoff :
    decode 0b0001000100000000000000000000000000000000000000100000000001000000#64 = .ok (.evnoteoff 2#4 64#7 0#7) := by
  decide

/-- NOTEON's velocity and note go where 30 R90 puts them: data = vel·256 + note. -/
theorem test_encode_noteon : encode (.noteon 69#7 100#7) = 0x0400000000006445#64 := by decide
/-- EVNOTEOFF: data = ch·65536 + vel·256 + note (30 R90). -/
theorem test_encode_evnoteoff : encode (.evnoteoff 2#4 64#7 0#7) = 0x1100000000020040#64 := by decide

/-! Illegal words, one for each clause of 30 R88. -/

theorem test_illegal_zero_field : decode 0x0600000100000000#64 = .error .zeroField := by decide
theorem test_illegal_op_08 : decode 0x0800000000000000#64 = .error .reservedOp := by decide
theorem test_illegal_op_12 : decode 0x1200000000000000#64 = .error .reservedOp := by decide
theorem test_illegal_idx : decode 0x0601000000000000#64 = .error .idxField := by decide
theorem test_illegal_setp_15 : decode 0x020F000000000000#64 = .error .badIndex := by decide
theorem test_illegal_rate_zero : decode 0x0100000000000000#64 = .error .zeroRate := by decide
theorem test_illegal_data_z : decode 0x0300000000000001#64 = .error .dataField := by decide
theorem test_illegal_note_bit_7 : decode 0x0400000000006480#64 = .error .dataField := by decide
theorem test_illegal_ev_bit_20 : decode 0x1000000000106440#64 = .error .dataField := by decide

/-- `SETP RES, 0.5` stores 0x00008000 (41 R151, 30 R85); a tie goes to the even multiple (30 R90). -/
theorem test_q16_literal : q16Literal (1 / 2) = some 0x00008000#32 ∧ q16Literal (-1 / 4) = some 0xFFFFC000#32 ∧
    q16Literal (3 / 131072) = some 2#32 ∧ q16Literal 32768 = none := by decide +kernel

/-! ### Small states -/

/-- Derived registers within their ranges: sustain 1/2, times of the example of 45 R261, everything else plain. -/
def plainDerived : Derived where
  filter := ⟨.rat 1000, .rat 0, .rat 1, .rat (1 / 5), .rat 0⟩
  env := ⟨.rat (2 / 1000), .rat (3 / 1000), .rat (10 / 1000), .rat (1 / 2)⟩
  aMode := 0#32
  osc := ⟨.pulse, .rat 0, .rat 0, .rat 0, .rat (1 / 2), .rat 0, .rat 0⟩
  lfo := ⟨.sine, .rat (1 / 100), .rat (1 / 2), .rat 1, .rat 0, .rat 1, .rat 1⟩

/-- A state after INIT at 1000 Hz, a complete snapshot of zeros and an UPDATE, with plain derived registers. -/
def ready : State :=
  { State.reset with
    vInit := true, vUpd := true, pw := Vector.replicate 15 true, sr := .rat 1000, derived := plainDerived }

/-- `ready` with one snapshot word. -/
def withSnap (r : SnapReg) (w : Data) : State := { ready with snap := ready.snap.set (snapIndex r) w }

/-- `ready` with notes held, pressed in this order. -/
def holding (notes : List Note) : State :=
  { ready with
    gate := true
    vm := { seq := notes, held := notes.foldl (fun h n => h.set n.toNat true n.isLt) (Vector.replicate 128 false),
            hcnt := notes.length, cur := notes.getLast?, lastVel := 100#7 } }

/-- `ready` in an amplitude mode. -/
def inMode (m : Data) : State := { ready with derived := { plainDerived with aMode := m } }

/-- A sequence at capacity, every entry but the lowest stale. -/
def full : State :=
  { holding [60#7] with vm := { (holding [60#7]).vm with seq := 60#7 :: List.replicate 127 64#7 } }

/-- The parameters with every arbitrary primitive in force. -/
def ownParams : Params :=
  { defaultParams with
    math := .own, note2hz := .own, softClip := .own, shapes := .own, sawMorph := .own, varOsc := .own,
    ladder := .own, onePole := .own, envLaw := .own, lfoGens := .own }

/-- The state after a completed command, else the state itself. -/
def after (o : Result) (s : State) : State :=
  match o with
  | .next t => t
  | .fault _ => s
  | .refused _ => s

/-! ### One step each: the worked examples of the spec -/

/-- 41 R150: `INIT 48000` leaves SR = 48000, GATE = false, the stream empty, V_UPD false. -/
theorem test_init : (after (exec (.init 48000#32) { holding [60#7] with outs := [(.rat 1, .rat 1)] }) State.reset).sr = .rat 48000 ∧
    (after (exec (.init 48000#32) { holding [60#7] with outs := [(.rat 1, .rat 1)] }) ready).outs = [] ∧
    (after (exec (.init 48000#32) (holding [60#7])) ready).vUpd = false ∧
    (after (exec (.init 48000#32) (holding [60#7])) ready).gate = false := by decide +kernel

/-- 41 R151: `SETP RES, 0.5` stores 0x00008000 in P[5] and sets PW[5] only. -/
theorem test_setp : (after (exec (.setp 5#8 0x8000#32) { ready with pw := noneWritten }) ready).snap[5] = 0x8000#32 ∧
    (after (exec (.setp 5#8 0x8000#32) { ready with pw := noneWritten }) ready).pw[5] = true ∧
    (after (exec (.setp 5#8 0x8000#32) { ready with pw := noneWritten }) ready).pw[4] = false := by decide

/-- 42 R171: `RES` = 1.0 gives RESO = 0.93 and DRIVE = 3; `CUTOFF` = 5 gives BASE_CUT = 20. -/
theorem test_update_filter :
    (after (exec .update (withSnap .res 0x00010000#32)) ready).derived.filter.reso = .rat (93 / 100) ∧
    (after (exec .update (withSnap .res 0x00010000#32)) ready).derived.filter.drive = .rat 3 ∧
    (after (exec .update (withSnap .cutoff 0x00050000#32)) ready).derived.filter.baseCut = .rat 20 := by decide +kernel

/-- 43 R201: `OSC_CHAR` = -0.5 gives O_BASEW = 0.25, O_SYNCAMT = 0, O_FOLDBASE = 0.5; 44 R230: S|B is Pitch-locked. -/
theorem test_update_osc_lfo :
    (after (exec .update (withSnap .oscChar 0xFFFF8000#32)) ready).derived.osc.baseW = .rat (1 / 4) ∧
    (after (exec .update (withSnap .oscChar 0xFFFF8000#32)) ready).derived.osc.syncAmt = .rat 0 ∧
    (after (exec .update (withSnap .oscChar 0xFFFF8000#32)) ready).derived.osc.foldBase = .rat (1 / 2) ∧
    (after (exec .update (withSnap .lfoSel 5#32)) ready).derived.lfo.mode = .pitchLocked := by decide +kernel

/-- 41 R153: `NOTEON 69, 100` leaves FREQ = 440, GATE = true, ENV1 in stage Attack at its level. -/
theorem test_noteon : (after (exec (.noteon 69#7 100#7) ready) ready).freq = .rat 440 ∧
    (after (exec (.noteon 69#7 100#7) ready) ready).gate = true ∧
    (after (exec (.noteon 69#7 100#7) { ready with env1 := .ref .decay (.rat (3 / 4)) }) ready).env1 = .ref .attack (.rat (3 / 4)) := by
  decide +kernel

/-- 41 R154: NOTEOFF leaves FREQ and closes the gate. -/
theorem test_noteoff : (after (exec .noteoff { ready with freq := .rat 440, gate := true }) ready).freq = .rat 440 ∧
    (after (exec .noteoff { ready with freq := .rat 440, gate := true }) ready).gate = false := by decide +kernel

/-- 45 R261 and 42 R181: at SR = 1000 and T_ATT = 0.002 the first tick of an open gate raises ENV1 to 1/2; the tick appends one
frame and moves the drone's ENV2 not at all. -/
theorem test_tick : (after (exec .tick { ready with gate := true }) ready).env1 = .ref .attack (.rat (1 / 2)) ∧
    (after (exec .tick { ready with gate := true }) ready).outs.length = 1 ∧
    (after (exec .tick { ready with gate := true }) ready).env2 = .ref .idle (.rat 0) := by decide +kernel

/-- 42 R178: BASE_CUT = 1000, env = 1, C_ENVD = 0.2, lfo = 0: the filter's cutoff is 2000. -/
theorem test_tick_cutoff :
    (after (exec .tick { ready with gate := true, env1 := .ref .attack (.rat (1 / 2)) }) ready).filt.fc = .rat 2000 := by decide +kernel

/-- 42 R184: `BLOCK 0` changes nothing; `BLOCK 2` appends two frames. -/
theorem test_block : exec (.block 0#32) ready = .next ready ∧
    (after (exec (.block 2#32) ready) ready).outs.length = 2 := ⟨rfl, by decide +kernel⟩

/-- 46 R281: from the empty stack `EVNOTEON 0, 60, 100`. -/
theorem test_evnoteon : (after (exec (.evnoteon 0#4 60#7 100#7) ready) ready).vm.seq = [60#7] ∧
    (after (exec (.evnoteon 0#4 60#7 100#7) ready) ready).vm.isHeld 60#7 = true ∧
    (after (exec (.evnoteon 0#4 60#7 100#7) ready) ready).vm.hcnt = 1 ∧
    (after (exec (.evnoteon 0#4 60#7 100#7) ready) ready).vm.cur = some 60#7 ∧
    (after (exec (.evnoteon 0#4 60#7 100#7) ready) ready).vm.lastVel = 100#7 ∧
    (after (exec (.evnoteon 0#4 60#7 100#7) ready) ready).gate = true := by decide +kernel

/-- 46 R288: the 129th entry faults. -/
theorem test_evnoteon_full : exec (.evnoteon 0#4 67#7 100#7) full = .fault .stackOverflow := by
  have notHeld : full.vm.isHeld 67#7 = false := by decide +kernel
  have atCapacity : vmCap ≤ full.sp := by decide +kernel
  have vm : full.params.hasVM = true := rfl
  have init : full.vInit = true := rfl
  simp [exec, execEvnoteon, notePress, notHeld, atCapacity, vm, init]

/-- 46 R287: of [60, 64, 67] release 64: current stays 67, the sequence stays. -/
theorem test_evnoteoff_other :
    (after (exec (.evnoteoff 0#4 64#7 0#7) (holding [60#7, 64#7, 67#7])) ready).vm.cur = some 67#7 ∧
    (after (exec (.evnoteoff 0#4 64#7 0#7) (holding [60#7, 64#7, 67#7])) ready).vm.seq = [60#7, 64#7, 67#7] ∧
    (after (exec (.evnoteoff 0#4 64#7 0#7) (holding [60#7, 64#7, 67#7])) ready).vm.hcnt = 2 := by decide +kernel

/-- 46 R287: then release 67: current 60, SP 1. -/
theorem test_evnoteoff_pop :
    (after (exec (.evnoteoff 0#4 67#7 0#7) { holding [60#7, 67#7] with
      vm := { (holding [60#7, 67#7]).vm with seq := [60#7, 64#7, 67#7] } }) ready).vm.cur = some 60#7 ∧
    (after (exec (.evnoteoff 0#4 67#7 0#7) { holding [60#7, 67#7] with
      vm := { (holding [60#7, 67#7]).vm with seq := [60#7, 64#7, 67#7] } }) ready).vm.seq = [60#7] := by decide +kernel

/-! ### Functions of 40, 43, 44: the spec's examples -/

/-- 40 R116. -/
theorem test_fold : tri4 (.rat (3 / 2)) = .rat (1 / 2) ∧ tri4 (.rat 3) = .rat (-1) ∧ tri4 (.rat (-3 / 2)) = .rat (-1 / 2) ∧
    fold (.rat (1 / 2)) (.rat (1 / 2)) = .rat (-1 / 2) ∧ fold (.rat 1) (.rat 1) = .rat 1 := by decide +kernel
/-- 40 R115. -/
theorem test_soft_clip : softClip .reference (.rat 1) = .rat (7 / 9) ∧ softClip .reference (.rat 2) = .rat (62 / 63) ∧
    softClip .reference (.rat 5) = .rat 1 ∧ softClip .reference (.rat (-4)) = .rat (-1) := by decide +kernel
/-- 40 R117. -/
theorem test_shapes : shape1 .reference (.rat (1 / 2)) = .rat (11 / 16) ∧ shape2 .reference (.rat (1 / 2)) = .rat (1 / 3) ∧
    shapeBlend .reference (.rat (1 / 2)) (.rat (1 / 2)) = .rat (49 / 96) ∧
    shapeBlend .reference (.rat (-1 / 2)) (.rat 1) = .rat (-1 / 2) := by decide +kernel
/-- 40 R121: SR 8000, f 1000, from phase 1/8: the triangle's second sample -0.5; SawMorph at pw 1 gives -0.75. -/
theorem test_oscillator :
    (oscStep (.rat 8000) (.ref ⟨.rat (1 / 8), .rat (1 / 8)⟩) ⟨.rat 1000, .triangle, .rat (1 / 2), false, .rat 1000⟩).2 = .rat (-1 / 2) ∧
    (oscStep (.rat 8000) (.ref ⟨.rat (1 / 8), .rat (1 / 8)⟩) ⟨.rat 1000, .sawMorph, .rat 1, false, .rat 1000⟩).2 = .rat (-3 / 4) ∧
    (oscStep (.rat 8000) (.ref ⟨.rat (7 / 8), .rat (7 / 8)⟩) ⟨.rat 1000, .square, .rat (1 / 2), false, .rat 1000⟩)
      = (.ref ⟨.rat 0, .rat 0⟩, .rat (-1)) := by decide +kernel
/-- 43 R206: O_CHAR = 0.2 gives ratio 2, O_CHAR = 1 ratio 32 whatever the modulation adds. -/
theorem test_sync_ratio :
    syncRatio .reference ⟨.triDig, .rat (1 / 5), .rat 0, .rat 0, .rat (3 / 5), .rat (1 / 5), .rat 0⟩ (.rat 1) (.rat 1) = .rat 2 ∧
    syncRatio .reference ⟨.triDig, .rat 1, .rat 1, .rat 1, .rat 1, .rat 1, .rat 0⟩ (.rat 1) (.rat 1) = .rat 32 := by
  decide +kernel
/-- 44 R233, R234: the sine at a quarter turn is 1; the triangle at phase 1/8 is 1/2. -/
theorem test_lfo_periodic : sint .reference (.rat (1 / 4)) = .rat 1 ∧
    (triStep (.rat 800) (.rat 100) (.ref (.rat (1 / 8)))).2 = .rat (1 / 2) := by decide +kernel
/-- 44 R236, R237: the second tick fires the clock of the stepped generator; the smoothed one interpolates. -/
theorem test_lfo_random :
    shStep (.rat 100) (.rat 50) (.rat (-1 / 5)) (.ref ⟨.rat (1 / 2), .rat 0⟩) = (.ref ⟨.rat 0, .rat (-1 / 5)⟩, .rat (-1 / 5)) ∧
    (smStep (.rat 100) (.rat 25) (.rat (4 / 5)) (.ref ⟨.rat 0, .rat 0, .rat (4 / 5)⟩)).2 = .rat (1 / 5) := by decide +kernel
/-- 42 R172, 40 R114: knobs at 0 and 1 give exactly the bounds. -/
theorem test_adsr_ends : adsrTime .own (.rat 0) attMin attMax attCurve = .rat (2 / 1000) ∧
    adsrTime .own (.rat 1) relMin relMax relCurve = .rat 3 := by decide +kernel
/-- 00 R8: floor, fraction and floored modulus of a negative value. -/
theorem test_floor : (Val.rat (-1 / 4)).floor = -1 ∧ (Val.rat (-1 / 4)).frac = .rat (3 / 4) ∧
    (Val.rat (-1)).mod (.rat 4) = .rat 3 := by decide +kernel
/-- 30 R85: 1, -1, -0.25 and 18000, and the two ends of the range. -/
theorem test_q16 : q16 0x00010000#32 = .rat 1 ∧ q16 0xFFFF0000#32 = .rat (-1) ∧ q16 0xFFFFC000#32 = .rat (-1 / 4) ∧
    q16 0x46500000#32 = .rat 18000 ∧ q16 0x7FFFFFFF#32 = .rat (32768 - 1 / 65536) ∧ q16 0x80000000#32 = .rat (-32768) := by
  decide +kernel

/-! ### Witnesses: for every statement with hypotheses, inputs that meet them, clause by clause -/

/-- Every range of the plain derived registers holds. -/
theorem plainDerived_inRange : DerivedInRange plainDerived := by
  constructor <;> (norm_num [plainDerived, Within, InUnit, InBip])

theorem readyWritten : allWritten ready.pw = true := allWritten_eq_true.mpr (by decide)

theorem ready_ranges (words : List Word) : RangeInv { ready with port := words } where
  freqInit := by
    rw [show ready.params.freqInit = (Val.rat 0).max Config.freqInit from rfl]
    simp
  freq := by simp [ready, State.reset]
  updInit := fun _ => rfl
  updWritten := fun _ => readyWritten
  sampleRate := fun _ => by norm_num [ready]
  derived := fun _ => plainDerived_inRange
  res := fun _ => by norm_num [ready, State.reset, Within]
  env1 := by norm_num [ready, State.reset, EnvInRange, InUnit]
  env2 := by norm_num [ready, State.reset, EnvInRange, InUnit]
  oscP := by norm_num [ready, State.reset, OscInRange, InPhase]
  oscS := by norm_num [ready, State.reset, OscInRange, InPhase]
  oscT := by norm_num [ready, State.reset, OscInRange, InPhase]
  gSin := by norm_num [ready, State.reset, LfoBank.zero, PhaseInRange, InPhase]
  gTri := by norm_num [ready, State.reset, LfoBank.zero, PhaseInRange, InPhase]
  gPl := by norm_num [ready, State.reset, LfoBank.zero, PhaseInRange, InPhase]
  gSh := by norm_num [ready, State.reset, LfoBank.zero, HoldInRange, InPhase, InBip]
  gSm := by norm_num [ready, State.reset, LfoBank.zero, SmoothInRange, InPhase, InBip]
  out := by norm_num [ready, State.reset, InBip]
  frames := fun _ h => absurd h (by simp [ready, State.reset])

/-- A stack whose cells are computed meets the invariant. -/
theorem stackInv_of_check (v : VM) (cap : v.seq.length ≤ 128) (count : v.hcnt = v.held.count true)
    (listed : ((List.range 128).all fun k => !v.isHeld (BitVec.ofNat 7 k) || v.seq.contains (BitVec.ofNat 7 k)) = true)
    (cur : ∃ c, v.cur = some c ∧ v.isHeld c = true) (pos : v.hcnt ≠ 0) : StackInv v := by
  obtain ⟨c, hc, hh⟩ := cur
  refine ⟨cap, count, ?_, ?_, ?_⟩
  · intro n hn
    have at' := List.all_eq_true.mp listed n.toNat (List.mem_range.mpr n.isLt)
    simpa [hn] using at'
  · simp [hc, pos]
  · intro d hd
    rw [hc, Option.some.injEq] at hd
    exact hd ▸ hh

theorem stackInv_two : StackInv (holding [60#7, 64#7]).vm :=
  stackInv_of_check _ (by decide +kernel) (by decide +kernel) (by decide +kernel) ⟨64#7, by decide +kernel⟩
    (by decide +kernel)

theorem stackInv_one : StackInv (holding [60#7]).vm :=
  stackInv_of_check _ (by decide +kernel) (by decide +kernel) (by decide +kernel) ⟨60#7, by decide +kernel⟩
    (by decide +kernel)

theorem stackInv_full : StackInv full.vm :=
  stackInv_of_check _ (by decide +kernel) (by decide +kernel) (by decide +kernel) ⟨60#7, by decide +kernel⟩
    (by decide +kernel)

/-! Encoding -/

theorem witness_DecodeOfEncodeIsIdentity : Instr.wellFormed (.evnoteon 15#4 127#7 127#7) = true := by decide
theorem witness_DecodeAcceptsOnlyEncodings : decode 0x020EFFFFFFFFFFFF#64 = .error .zeroField ∧
    decode 0x020E0000FFFFFFFF#64 = .ok (.setp 14#8 0xFFFFFFFF#32) := by decide
theorem witness_WordSpellsCommandIffMaskMatches :
    0x01000000FFFFFFFF#64 &&& (Instr.init 1#32).mask = (Instr.init 1#32).pattern ∧
      SideCondition true (.init 1#32) 0x01000000FFFFFFFF#64 := ⟨by decide, by unfold SideCondition; decide⟩
theorem witness_IllegalWords_reserved : Illegal 0x0F00000000000000#64 := .inl (by decide)
theorem witness_IllegalWords_setp_15 : Illegal 0x020F000000000000#64 := .inr (.inr (.inr (.inl (by decide))))
theorem witness_IllegalWords_note_bit_31 : Illegal 0x0400000080000000#64 :=
  .inr (.inr (.inr (.inr (.inr (.inr (.inl ⟨by decide, 31, by decide, by decide⟩))))))
theorem witness_IllegalWords_noVM : ¬ Illegal 0x1000000000000000#64 ∧ Word.op 0x1000000000000000#64 = 0x10#8 ∧
    { ready with params := { defaultParams with hasVM := false } }.params.hasVM = false := by
  refine ⟨?_, by decide, rfl⟩
  have data : Word.data 0x1000000000000000#64 = 0#32 := by decide
  rintro (h | h | h | h | h | h | h | ⟨_, k, _, h⟩)
  · exact absurd h (by decide)
  · exact absurd h (by decide)
  · exact absurd h (by decide)
  · exact absurd h (by decide)
  · exact absurd h (by decide)
  · exact absurd h (by decide)
  · exact absurd h.1 (by decide)
  · rw [data] at h; simp at h

/-! The step and the marks -/

theorem witness_StepRuns_command : Clean { ready with port := [0x0600000000000000#64] } ∧
    { ready with port := [0x0600000000000000#64] }.port = [0x0600000000000000#64] ∧
    decode 0x0600000000000000#64 = .ok .tick := ⟨⟨rfl, rfl⟩, rfl, by decide⟩
theorem witness_StepRuns_illegal : Clean { ready with port := [0#64] } ∧ decode 0#64 = .error .reservedOp :=
  ⟨⟨rfl, rfl⟩, by decide⟩
theorem witness_StepRuns_empty : Clean ready ∧ ready.port = [] := ⟨⟨rfl, rfl⟩, rfl⟩
theorem witness_MarksAreSticky_completed : ∃ t, exec (.init 1#32) { ready with faultMark := some .stackOverflow } = .next t :=
  ⟨_, rfl⟩
theorem witness_MarksAreSticky_marked : { ready with faultMark := some Fault.stackOverflow }.faultMark = some .stackOverflow ∧
    { ready with refusalMark := some Refusal.notUpdated }.refusalMark = some .notUpdated := ⟨rfl, rfl⟩
theorem witness_MarksAreSticky_refused : runWord 0x0600000000000000#64 State.reset = .refused .notInitialised ∧
    State.reset.refusalMark = none ∧ State.reset.faultMark = none := ⟨rfl, rfl, rfl⟩
theorem witness_MarksAreSticky_faulted : runWord 0x1000000000006443#64 full = .fault .stackOverflow ∧
    full.faultMark = none := by
  have word : decode 0x1000000000006443#64 = .ok (.evnoteon 0#4 67#7 100#7) := by decide
  exact ⟨by rw [runWord, word]; exact test_evnoteon_full, rfl⟩
theorem witness_RefusalsAreTheClosedList_present : runWord 0x0600000000000000#64 State.reset = .refused .notInitialised := rfl
theorem witness_RefusalsAreTheClosedList_kept :
    { ready with refusalMark := some Refusal.illegalWord }.refusalMark = some .illegalWord := rfl
theorem witness_OnlyStackOverflowFaults : StackInv full.vm ∧ full.params.hasVM = true ∧ full.vInit = true ∧
    full.sp = 128 ∧ full.vm.isHeld 67#7 = false :=
  ⟨stackInv_full, rfl, rfl, by decide +kernel, by decide +kernel⟩
theorem witness_CommandsBeforeInit : State.reset.vInit = false ∧ Instr.wellFormed (.setp 14#8 0#32) = true ∧
    (∀ sr, Instr.setp 14#8 0#32 ≠ .init sr) := ⟨rfl, by decide, nofun⟩

/-! INIT, SETP, NOTEON, NOTEOFF -/

theorem witness_InitResult_least : 1 ≤ (1#32).toNat := by decide
theorem witness_InitResult_zero : (0#32).toNat = 0 := by decide
theorem witness_InitResult_reference : defaultParams.envLaw = .reference ∧ defaultParams.ladder = .reference ∧
    defaultParams.varOsc = .reference ∧ defaultParams.lfoGens = .reference ∧ defaultParams.hasVM = true :=
  ⟨rfl, rfl, rfl, rfl, rfl⟩
theorem witness_InitResult_own : ownParams.ladder = .own ∧ ownParams.varOsc = .own ∧
    { ownParams with hasVM := false }.hasVM = false := ⟨rfl, rfl, rfl⟩
theorem witness_SetpResult_stores : ready.vInit = true ∧ (0#8).toNat ≤ 14 ∧ (14#8).toNat ≤ 14 ∧
    ∃ t, exec (.setp 14#8 1#32) ready = .next t ∧ ∃ u, exec (.setp 14#8 2#32) t = .next u :=
  ⟨rfl, by decide, by decide, _, rfl, _, rfl⟩
theorem witness_SetpResult_index : 14 < (15#8).toNat ∧ 14 < (255#8).toNat := by decide
theorem witness_SetpResult_refused : (14#8).toNat ≤ 14 ∧ State.reset.vInit = false := ⟨by decide, rfl⟩
theorem witness_NoteonResult : ready.vInit = true ∧ State.reset.vInit = false ∧ ready.env1 = .ref .idle (.rat 0) := ⟨rfl, rfl, rfl⟩
theorem witness_NoteToFrequency : defaultParams.note2hz = .reference ∧ defaultParams.math = .reference := ⟨rfl, rfl⟩
theorem witness_ArbitraryGeneratorsStart_init : (∃ t, exec (.init 48000#32) { ready with params := ownParams } = .next t) ∧
    ownParams.envLaw = .own ∧ ownParams.lfoGens = .own := ⟨⟨_, rfl⟩, rfl, rfl⟩
theorem witness_ArbitraryGeneratorsStart_noteon :
    { ready with env1 := .own true [.rat 1] }.env1 = .own true [.rat 1] ∧
      ∃ t, exec (.noteon 127#7 0#7) { ready with env1 := .own true [.rat 1] } = .next t := ⟨rfl, _, rfl⟩
theorem witness_NoteoffResult : ready.vInit = true ∧ State.reset.vInit = false := ⟨rfl, rfl⟩

/-! UPDATE -/

theorem witness_UpdateResult_completes : ∃ s : State, s.vInit = true ∧ (∀ j : Fin 15, s.pw[j] = true) ∧
    (s.snap[3]).toNat = 2 ∧ s.snap[14] = 7#32 ∧ (∀ k, 3 ≤ k → (s.snap[14]).getLsbD k = false) :=
  ⟨{ ready with snap := ((Vector.replicate 15 0#32).set 3 2#32).set 14 7#32 }, rfl, by decide, by decide, by decide,
    selReserved_eq_zero.mp (by decide)⟩
theorem witness_UpdateResult_again : ∃ u v, u.snap = ready.snap ∧ u.params = ready.params ∧ exec .update u = .next v :=
  ⟨ready, ready.update, rfl, rfl, exec_update_eq_next.mpr ⟨rfl, allWritten_eq_true.mpr (by decide), by decide, by decide, rfl⟩⟩
theorem witness_UpdateResult_incomplete : { ready with pw := (Vector.replicate 15 true).set 14 false }.vInit = true ∧
    ∃ j : Fin 15, { ready with pw := (Vector.replicate 15 true).set 14 false }.pw[j] = false := ⟨rfl, 14, by decide⟩
theorem witness_UpdateResult_badMode : (withSnap .oscMode 3#32).vInit = true ∧
    (∀ j : Fin 15, (withSnap .oscMode 3#32).pw[j] = true) ∧ 2 < ((withSnap .oscMode 3#32).snap[3]).toNat :=
  ⟨rfl, by decide, by decide⟩
theorem witness_UpdateResult_badSel : (withSnap .lfoSel 8#32).vInit = true ∧
    (∀ j : Fin 15, (withSnap .lfoSel 8#32).pw[j] = true) ∧ ((withSnap .lfoSel 8#32).snap[3]).toNat ≤ 2 ∧
    ∃ k, 3 ≤ k ∧ ((withSnap .lfoSel 8#32).snap[14]).getLsbD k = true := ⟨rfl, by decide, by decide, 3, by decide⟩

/-- The one hypothesis of the statements about what UPDATE writes, with any knob. -/
theorem witness_update_completes : ∃ t, exec .update ready = .next t :=
  ⟨ready.update, exec_update_eq_next.mpr ⟨rfl, allWritten_eq_true.mpr (by decide), by decide, by decide, rfl⟩⟩
theorem witness_update_completes_knobs (w : Data) : (∃ t, exec .update (withSnap .attack w) = .next t) ∧
    (∃ t, exec .update (withSnap .decay w) = .next t) ∧ (∃ t, exec .update (withSnap .release w) = .next t) ∧
    ∃ t, exec .update (withSnap .lfoRate w) = .next t := by
  have completes (r : SnapReg) (h3 : u32 (snapWord (withSnap r w).snap .oscMode) ≤ 2)
      (h14 : selReserved (snapWord (withSnap r w).snap .lfoSel) = 0#29) : ∃ t, exec .update (withSnap r w) = .next t :=
    ⟨_, exec_update_eq_next.mpr ⟨rfl, readyWritten, h3, h14, rfl⟩⟩
  refine ⟨completes _ ?_ ?_, completes _ ?_ ?_, completes _ ?_ ?_, completes _ ?_ ?_⟩ <;>
    simp [withSnap, ready, State.reset, snapWord, snapIndex, u32, selReserved]
theorem witness_UpdateLfoRates_reference : ready.params.math = .reference := rfl
theorem witness_UpdateEnvelopeRegisters_ends : (q16 (withSnap .attack 0#32).snap[8]).real ≤ 0 ∧
    1 ≤ (q16 (withSnap .attack 0x10000#32).snap[8]).real ∧ (q16 (withSnap .decay 0#32).snap[9]).real ≤ 0 ∧
    1 ≤ (q16 (withSnap .decay 0x10000#32).snap[9]).real ∧ (q16 (withSnap .release 0#32).snap[11]).real ≤ 0 ∧
    1 ≤ (q16 (withSnap .release 0x10000#32).snap[11]).real := by
  have zero : q16 0#32 = .rat 0 := by decide +kernel
  have one : q16 0x10000#32 = .rat 1 := by decide +kernel
  refine ⟨?_, ?_, ?_, ?_, ?_, ?_⟩ <;> simp [withSnap, snapIndex, zero, one]
theorem witness_UpdateEnvelopeRegisters_knob : ∃ k : Val, k.real = min (max (q16 ready.snap[8]).real 0) 1 :=
  ⟨(q16 ready.snap[8]).clamp (.rat 0) (.rat 1), by simp⟩
theorem witness_UpdateLfoRates : (Val.rat 0).real = min (max (q16 (withSnap .lfoRate 0#32).snap[13]).real 0) 1 ∧
    (Val.rat 1).real = min (max (q16 (withSnap .lfoRate 0x10000#32).snap[13]).real 0) 1 ∧
    (Val.rat (1 / 4)).real = min (max (q16 (withSnap .lfoRate 0x4000#32).snap[13]).real 0) 1 ∧
    (Val.rat (1 / 2)).real = min (max (q16 (withSnap .lfoRate 0x8000#32).snap[13]).real 0) 1 ∧
    (Val.rat (3 / 4)).real = min (max (q16 (withSnap .lfoRate 0xC000#32).snap[13]).real 0) 1 := by
  have at0 : q16 0#32 = .rat 0 := by decide +kernel
  have at1 : q16 0x10000#32 = .rat 1 := by decide +kernel
  have at14 : q16 0x4000#32 = .rat (1 / 4) := by decide +kernel
  have at12 : q16 0x8000#32 = .rat (1 / 2) := by decide +kernel
  have at34 : q16 0xC000#32 = .rat (3 / 4) := by decide +kernel
  refine ⟨?_, ?_, ?_, ?_, ?_⟩ <;> norm_num [withSnap, snapIndex, at0, at1, at14, at12, at34]

/-! Pure functions and primitives -/

theorem witness_NoteToFrequency_argument : ∃ x : Val, x.real = (((127#7 : Note).toNat : ℝ) - 69) / 12 :=
  ⟨.rat (58 / 12), by norm_num⟩
theorem witness_AdsrTimeMap : 0 < attMin.real ∧ attMin.real < attMax.real ∧ 0 < attCurve.real ∧
    (Val.rat 0).real < (Val.rat 1).real ∧ InUnit (.rat 0) ∧ InUnit (.rat 1) := by
  norm_num [attMin, attMax, attCurve, InUnit]
theorem witness_AdsrTimeMap_quotient : (attMax.div attMin).real = attMax.real / attMin.real := by simp
theorem witness_ExpMapEndpoints : 0 < lfoFmin.real ∧ lfoFmin.real < lfoFmax.real ∧
    (lfoFmax.div lfoFmin).real = lfoFmax.real / lfoFmin.real := by norm_num [lfoFmin, lfoFmax]
theorem witness_SoftClipProperties : -3 ≤ (Val.rat (-3)).real ∧ (Val.rat 3).real ≤ 3 ∧ 3 ≤ (Val.rat 3).real ∧
    (Val.rat (-3)).real ≤ -3 ∧ (Val.rat (-3)).real = -(Val.rat 3).real ∧ (Val.rat 0).real ≤ (Val.rat 1).real := by norm_num
theorem witness_WavefoldProperties : (Val.rat 3).real = (Val.rat (-1)).real + 4 ∧ -1 ≤ (Val.rat (-1)).real ∧
    1 ≤ (Val.rat 1).real ∧ (Val.rat 3).real ≤ 3 ∧ (Val.rat 5).real ≤ 5 := by norm_num
theorem witness_WavefoldProperties_fold : (Val.rat 13).real = (Val.rat 1).real * (1 + 12 * (Val.rat 1).real) ∧
    (Val.rat (-1)).real = -(Val.rat 1).real ∧ (Val.rat 0).real = 0 ∧ InBip (.rat (-1)) := by norm_num [InBip]
theorem witness_ShapeBlendStages : 0 ≤ (Val.rat 0).real ∧ (Val.rat (1 / 3)).real ≤ 1 / 3 ∧ 1 / 3 ≤ (Val.rat (1 / 3)).real ∧
    (Val.rat (2 / 3)).real ≤ 2 / 3 ∧ 2 / 3 ≤ (Val.rat (2 / 3)).real ∧ (Val.rat 1).real ≤ 1 ∧ (Val.rat (-1)).real < 0 := by
  norm_num
theorem witness_SawMorphWidth : InUnit (.rat 0) ∧ InUnit (.rat 1) ∧ InPhase (.rat 0) ∧ (Val.rat 0).real = 0 ∧
    (Val.rat 1).real = 1 := by norm_num [InUnit, InPhase]
theorem witness_ReferenceOscillator_sync : (Val.rat 0).real + (Val.rat 1000).real / (Val.rat 8000).real < 1 ∧
    1 ≤ (Val.rat (7 / 8)).real + (Val.rat 1000).real / (Val.rat 8000).real := by norm_num
theorem witness_ReferenceOscillator_wave : (Val.rat (1 / 4)).real < (Val.rat (1 / 2)).real ∧
    (Val.rat (1 / 2)).real ≤ (Val.rat (1 / 2)).real := by norm_num
theorem witness_ReferenceOscillator_selfSync : 0 < (Val.rat 8000).real ∧ 0 ≤ (Val.rat 0).real ∧ InPhase (.rat 0) ∧
    (Val.rat 0).real = (Val.rat 0).real := by norm_num [InPhase]

/-! TICK -/

theorem witness_tick_completes : ready.vInit = true ∧ ready.vUpd = true ∧ ∃ t, exec .tick ready = .next t :=
  ⟨rfl, rfl, _, rfl⟩
theorem witness_TickResult_refused : State.reset.vInit = false ∧ { ready with vUpd := false }.vUpd = false := ⟨rfl, rfl⟩
theorem witness_SuppliedDrawsAreUsed : { ready with draws := [⟨.rat (-1), .rat 0, .rat 1⟩] }.draws = [⟨.rat (-1), .rat 0, .rat 1⟩] ∧
    InBip (.rat (-1)) ∧ InBip (.rat 0) ∧ InBip (.rat 1) ∧
    ∃ t, exec .tick { ready with draws := [⟨.rat (-1), .rat 0, .rat 1⟩] } = .next t :=
  ⟨rfl, by norm_num [InBip], by norm_num [InBip], by norm_num [InBip], _, rfl⟩
theorem witness_OutputIsBoundedAndDual : (∃ t, exec .tick (inMode 3#32) = .next t) ∧ (tickAmp (inMode 3#32)).2.real = 0 :=
  ⟨⟨_, rfl⟩, by rw [show (tickAmp (inMode 3#32)).2 = .rat 0 by decide +kernel]; simp⟩
theorem witness_AmplitudeModes : (∀ m, ∃ t, exec .tick (inMode m) = .next t) ∧ (inMode 0#32).derived.aMode = 0#32 ∧
    (inMode 1#32).derived.aMode = 1#32 ∧ (inMode 2#32).derived.aMode = 2#32 ∧ 2 < ((inMode 3#32).derived.aMode).toNat ∧
    (inMode 3#32).derived.aMode ≠ 2#32 := ⟨fun _ => ⟨_, rfl⟩, rfl, rfl, rfl, by decide, by decide⟩
theorem witness_CutoffLaw : (∃ t, exec .tick ready = .next t) ∧ InUnit (tickEnv ready).2 ∧
    InBip ready.derived.filter.cEnvd ∧ InBip (tickLfo ready).2 ∧ InBip ready.derived.filter.cLfod := by
  refine ⟨⟨_, rfl⟩, ?_, ?_, ?_, ?_⟩
  · rw [show (tickEnv ready).2 = .rat 0 by decide +kernel]; simp [InUnit]
  · norm_num [ready, plainDerived, InBip]
  · rw [show (tickLfo ready).2 = .rat 0 by decide +kernel]; simp [InBip]
  · norm_num [ready, plainDerived, InBip]
theorem ready_positive : 0 < ready.sr.real ∧ 0 < ready.derived.env.tRel.real := by norm_num [ready, plainDerived]
theorem idle_neverGated : NeverGated (.ref .idle (.rat 0)) := ⟨rfl, by simp⟩
theorem witness_SilentUntilFirstNote : 0 < ready.sr.real ∧ 0 < ready.derived.env.tRel.real ∧ NeverGated ready.env1 ∧
    NeverGated ready.env2 ∧ ready.gate = false ∧ ready.derived.aMode = 0#32 ∧ ∃ t, exec (.block 1#32) ready = .next t :=
  ⟨ready_positive.1, ready_positive.2, idle_neverGated, idle_neverGated, rfl, rfl, _, rfl⟩
theorem witness_SilentUntilFirstNote_releaseOnly : 0 < (inMode 2#32).sr.real ∧ 0 < (inMode 2#32).derived.env.tRel.real ∧
    NeverGated (inMode 2#32).env1 ∧ NeverGated (inMode 2#32).env2 ∧ NeverGated (.own false [.rat 1]) ∧
    (inMode 2#32).gate = false ∧ (inMode 2#32).derived.aMode = 2#32 ∧
    ∃ t, exec (.block 1#32) (inMode 2#32) = .next t :=
  ⟨ready_positive.1, ready_positive.2, idle_neverGated, idle_neverGated, rfl, rfl, rfl, _, rfl⟩
theorem witness_AudioReadsNoSnapshot : (∃ t, exec .tick ready = .next t) ∧ ∃ t, exec (.block 1#32) ready = .next t :=
  ⟨⟨_, rfl⟩, _, rfl⟩

/-! The Oscillator Engine and the Modulation Source -/

theorem witness_OscillatorModes : { plainDerived.osc with mode := .sawPair }.mode = .sawPair ∧ plainDerived.osc.mode = .pulse ∧
    { plainDerived.osc with mode := .triDig }.mode = .triDig ∧ plainDerived.osc.char.real = 0 ∧
    0 < { plainDerived.osc with char := .rat (1 / 65536) }.char.real ∧
    { plainDerived.osc with char := .rat (-1 / 65536) }.char.real < 0 := by
  refine ⟨rfl, rfl, rfl, ?_, ?_, ?_⟩ <;> norm_num [plainDerived]
theorem phase_zero : InPhase (.rat 0) := by norm_num [InPhase]
theorem bip_zero : InBip (.rat 0) := by norm_num [InBip]
theorem witness_OscillatorOutputRange : (∃ c, ready.osc.p = .ref c ∧ InPhase c.ps) ∧ (∃ c, ready.osc.t = .ref c ∧ InPhase c.ps) :=
  ⟨⟨⟨.rat 0, .rat 0⟩, rfl, phase_zero⟩, ⟨⟨.rat 0, .rat 0⟩, rfl, phase_zero⟩⟩
theorem witness_LfoGeneratorsAdvance : (∃ t o, lfoStep defaultParams (.rat 800) { plainDerived.lfo with rateHz := .rat 100 }
      (.rat 440) ⟨.rat 1, .rat 1, .rat 1⟩ LfoBank.zero = (t, o)) ∧ defaultParams.onePole = .reference ∧
    LfoBank.zero.gSin = .ref (.rat 0) ∧ LfoBank.zero.gSh = .ref ⟨.rat 0, .rat 0⟩ ∧
    LfoBank.zero.gSm = .ref ⟨.rat 0, .rat 0, .rat 0⟩ :=
  ⟨⟨_, _, rfl⟩, rfl, rfl, rfl, rfl⟩
theorem witness_LfoGeneratorsAdvance_own : ∃ t o, lfoStep ownParams (.rat 800) plainDerived.lfo (.rat 440) ⟨.rat 1, .rat 1, .rat 1⟩
    (lfoInit .own (.rat 800)) = (t, o) ∧ ∃ h, (lfoInit .own (.rat 800)).gSh = .own h := ⟨_, _, rfl, _, rfl⟩
theorem witness_LfoGeneratorsAdvance_clock :
    (Val.rat 0).real + plainDerived.lfo.randHz.real / (Val.rat 800).real < 1 ∧
    1 ≤ (Val.rat (799 / 800)).real + plainDerived.lfo.randHz.real / (Val.rat 800).real := by norm_num [plainDerived]
theorem witness_SampleAndHold : 0 < (Val.rat 100).real ∧ 0 < (Val.rat 50).real ∧
    [Val.rat (3 / 10)].length < ⌈(Val.rat 100).real / (Val.rat 50).real⌉₊ ∧
    [Val.rat (3 / 10), .rat (-1 / 5)].length = ⌈(Val.rat 100).real / (Val.rat 50).real⌉₊ := by norm_num
theorem witness_SampleAndHold_clock : (Val.rat 0).real + (Val.rat 50).real / (Val.rat 100).real < 1 ∧
    1 ≤ (Val.rat (1 / 2)).real + (Val.rat 50).real / (Val.rat 100).real := by norm_num
theorem witness_LfoOutputRange : 0 < (Val.rat 800).real ∧ InBip (.rat 1) ∧ InBip (.rat (-1)) ∧ 0 ≤ plainDerived.lfo.randHz.real ∧
    (∃ x, ready.lfo.gSin = .ref x) ∧ (∃ c, ready.lfo.gSh = .ref c ∧ InPhase c.ph ∧ InBip c.h) ∧
    (∃ c, ready.lfo.gSm = .ref c ∧ InPhase c.ph ∧ InBip c.prev ∧ InBip c.next) ∧ plainDerived.lfo.mode ≠ .colored := by
  refine ⟨by norm_num, by norm_num [InBip], by norm_num [InBip], by norm_num [plainDerived], ⟨.rat 0, rfl⟩,
    ⟨⟨.rat 0, .rat 0⟩, rfl, phase_zero, bip_zero⟩, ⟨⟨.rat 0, .rat 0, .rat 0⟩, rfl, phase_zero, bip_zero, bip_zero⟩, by decide⟩
theorem witness_LfoOutputRange_periodic : (∃ x, ready.lfo.gTri = .ref x) ∧ ∃ x, ready.lfo.gPl = .ref x :=
  ⟨⟨.rat 0, rfl⟩, .rat 0, rfl⟩
theorem witness_LfoOutputRange_colored : defaultParams.onePole = .reference ∧ defaultParams.math = .reference ∧
    InBip ready.lfo.gCn.y1 ∧ InBip ready.lfo.gCn.y2 ∧
    ∃ r : LfoRegs, r.mode = .colored ∧ InBip r.cnRate ∧ r.gLow.real = 1 - r.cnRate.real ∧
      r.gHigh.real = 1 + r.cnRate.real / 2 :=
  ⟨rfl, rfl, bip_zero, bip_zero, ⟨.colored, .rat 1, .rat 1, .rat 1, .rat (-1), .rat 2, .rat (1 / 2)⟩, rfl,
    by norm_num [InBip], by norm_num, by norm_num⟩

/-! The envelopes -/

theorem witness_EnvelopeLaw : 0 < (Val.rat 1000).real ∧ 0 < plainDerived.env.tAtt.real ∧ 0 < plainDerived.env.tDec.real ∧
    0 < plainDerived.env.tRel.real ∧ InUnit plainDerived.env.sus ∧ InUnit (.rat 0) ∧ InUnit (.rat 1) ∧
    plainDerived.env.sus.real < 1 ∧ { plainDerived.env with sus := .rat 1 }.sus.real = 1 ∧ (Val.rat 0).real = 0 := by
  norm_num [plainDerived, InUnit]
theorem witness_EnvelopeLaw_segments : 1 < ⌈plainDerived.env.tAtt.real * (Val.rat 1000).real⌉₊ ∧
    2 < ⌈plainDerived.env.tDec.real * (Val.rat 1000).real⌉₊ ∧
    4 < ⌈(Val.rat (1 / 2)).real * plainDerived.env.tRel.real * (Val.rat 1000).real⌉₊ := by
  norm_num [plainDerived]
theorem witness_EnvelopeLaw_decay : (Val.rat (1 / 2)).real - (1 - plainDerived.env.sus.real) /
      (plainDerived.env.tDec.real * (Val.rat 1000).real) ≤ plainDerived.env.sus.real ∧
    plainDerived.env.sus.real < (Val.rat 1).real - (1 - plainDerived.env.sus.real) /
      (plainDerived.env.tDec.real * (Val.rat 1000).real) := by norm_num [plainDerived]
theorem witness_ReleaseOnlyEnvelope : (env2Step (.rat 1000) (.rat (10 / 1000)) false (.own false [.rat 1])).2 = .rat 0 := rfl
theorem witness_EnvelopeOutputRange : 1 ≤ ready.sr.real ∧ DerivedInRange ready.derived ∧ EnvInRange ready.env1 ∧
    EnvInRange ready.env2 :=
  ⟨(ready_ranges []).sampleRate rfl, plainDerived_inRange, (ready_ranges []).env1, (ready_ranges []).env2⟩

/-! BLOCK -/

theorem witness_BlockIsTicks : ready.vInit = true ∧ ready.vUpd = true ∧ 4294967294 + 1 < 2 ^ 32 ∧
    State.reset.vInit = false ∧ { ready with vUpd := false }.vUpd = false := ⟨rfl, rfl, by norm_num, rfl, rfl⟩

/-! Extension VM -/

theorem witness_NotePressResult_push : ready.params.hasVM = true ∧ ready.vInit = true ∧ (1#7 : Velocity) ≠ 0#7 ∧
    ready.vm.isHeld 127#7 = false ∧
    { full with vm := { full.vm with seq := full.vm.seq.dropLast } }.vm.seq.length < 128 := by
  refine ⟨rfl, rfl, by decide, by decide +kernel, by decide +kernel⟩
theorem witness_NotePressResult_held : (holding [60#7]).vm.isHeld 60#7 = true := by decide +kernel
theorem witness_NotePressResult_full : full.vm.isHeld 64#7 = false ∧ full.vm.seq.length = 128 := by
  refine ⟨by decide +kernel, by decide +kernel⟩
theorem witness_VelocityZeroIsNoteOff : ∃ t, exec (.evnoteon 0#4 60#7 0#7) (holding [60#7]) = .next t := by
  have held : (holding [60#7]).vm.isHeld 60#7 = true := by decide +kernel
  have last : ((holding [60#7]).vm.release 60#7).hcnt = 0 := by decide +kernel
  exact ⟨_, exec_evnoteon_eq_next.mpr ⟨rfl, rfl, .inl ⟨rfl, noteRelease_eq_next.mpr (.inr (.inl
    ⟨held, rfl, popNote_eq_next.mpr (.inl ⟨last, rfl⟩)⟩))⟩⟩⟩
theorem witness_NoteReleaseResult_noop : ready.params.hasVM = true ∧ ready.vInit = true ∧ ready.vm.isHeld 0#7 = false := by
  refine ⟨rfl, rfl, by decide +kernel⟩
theorem witness_NoteReleaseResult_current : (holding [60#7]).params.hasVM = true ∧ (holding [60#7]).vInit = true ∧
    (holding [60#7]).vm.isHeld 60#7 = true ∧ (holding [60#7]).vm.cur = some 60#7 := by
  refine ⟨rfl, rfl, by decide +kernel, rfl⟩
theorem witness_NoteReleaseResult_refused : State.reset.params.hasVM = true ∧ State.reset.vInit = false := ⟨rfl, rfl⟩
theorem witness_NoteReleaseResult_stale : (holding [60#7, 64#7]).vm.isHeld 60#7 = true ∧
    (holding [60#7, 64#7]).vm.cur ≠ some 60#7 := by
  refine ⟨by decide +kernel, by decide +kernel⟩
theorem witness_PopFindsTopmostHeldNote_last : StackInv (holding [60#7]).vm ∧ (holding [60#7]).vm.cur = some 60#7 ∧
    (holding [60#7]).vm.hcnt = 1 := ⟨stackInv_one, rfl, rfl⟩
theorem witness_PopFindsTopmostHeldNote_next : StackInv (holding [60#7, 64#7]).vm ∧
    (holding [60#7, 64#7]).vm.cur = some 64#7 ∧ (holding [60#7, 64#7]).vm.hcnt ≠ 1 := ⟨stackInv_two, rfl, by decide⟩
theorem witness_StackInvariantIsKept : StackInv { holding [60#7, 64#7] with port := [0x0500000000000000#64] }.vm ∧
    ∃ t, step { holding [60#7, 64#7] with port := [0x0500000000000000#64] } = .next t := ⟨stackInv_two, _, rfl⟩
theorem witness_GateFollowsTheStack : (holding [60#7]).params.hasVM = true ∧ StackInv (holding [60#7]).vm ∧
    GateInv (holding [60#7]) ∧ ∃ t, exec .tick (holding [60#7]) = .next t :=
  ⟨rfl, stackInv_one, by simp [GateInv, holding], _, rfl⟩

/-! Rules about the whole machine -/

theorem witness_exec_completes : (∃ t, exec .noteoff ready = .next t) ∧ ∃ t, exec (.setp 0#8 1#32) ready = .next t :=
  ⟨⟨_, rfl⟩, _, rfl⟩
theorem witness_OnlyManagerWritesTheStack : ∃ t, exec (.evnoteon 0#4 60#7 1#7) ready = .next t ∧ t.vm ≠ ready.vm := by
  have notHeld : ready.vm.isHeld 60#7 = false := by decide +kernel
  refine ⟨_, exec_evnoteon_eq_next.mpr ⟨rfl, rfl, .inr ⟨by decide, notePress_eq_next.mpr (.inr ⟨notHeld, by decide +kernel, rfl⟩)⟩⟩, ?_⟩
  intro h
  have seq := congrArg VM.seq h
  exact absurd seq (by decide)
theorem witness_RangesAreKept : RangeInv { ready with port := [0x0600000000000000#64] } ∧
    ∃ t, step { ready with port := [0x0600000000000000#64] } = .next t := ⟨ready_ranges _, _, rfl⟩

end Sys2Proof.Tests
end

section
/-! PROOFS. Who writes the stack of extension VM, and the Voice's frequency and gate (10_state.md R47). -/

namespace Sys2Proof.Machine

/-! ### What any number of ticks leaves alone -/

@[simp] theorem ticks_vm (n : Nat) (s : State) : (State.ticks n s).vm = s.vm := by
  rw [ticks_frame]

@[simp] theorem ticks_freq (n : Nat) (s : State) : (State.ticks n s).freq = s.freq := by
  rw [ticks_frame]

@[simp] theorem ticks_gate (n : Nat) (s : State) : (State.ticks n s).gate = s.gate := by
  rw [ticks_frame]

/-! ### Frames over all commands -/

/-- The note-priority stack belongs to INIT and the two stack events: the Voice's own note commands sound a note past it. -/
theorem exec_keeps_vm {i : Instr} {s t : State} (h : exec i s = .next t) (notInit : ∀ sr, i ≠ .init sr)
    (notOn : ∀ ch note vel, i ≠ .evnoteon ch note vel) (notOff : ∀ ch note vel, i ≠ .evnoteoff ch note vel) :
    t.vm = s.vm := by
  cases i with
  | init sr => exact absurd rfl (notInit sr)
  | setp idx d =>
    obtain ⟨-, -, rfl⟩ := exec_setp_eq_next.mp h
    exact State.writeSnap_vm s idx d
  | update =>
    obtain ⟨-, -, -, -, rfl⟩ := exec_update_eq_next.mp h
    exact State.update_vm s
  | noteon n v =>
    obtain ⟨-, rfl⟩ := exec_noteon_eq_next.mp h
    exact State.voiceNoteOn_vm s n
  | noteoff =>
    obtain ⟨-, rfl⟩ := exec_noteoff_eq_next.mp h
    exact State.voiceNoteOff_vm s
  | tick =>
    obtain ⟨-, -, rfl⟩ := exec_tick_eq_next.mp h
    exact State.tick_vm s
  | block n =>
    obtain ⟨-, -, rfl⟩ := exec_block_eq_next.mp h
    exact ticks_vm (u32 n) s
  | evnoteon ch n v => exact absurd rfl (notOn ch n v)
  | evnoteoff ch n v => exact absurd rfl (notOff ch n v)

/-- A command that is neither INIT nor one of the four note commands leaves the Voice's frequency and gate as they were. -/
theorem exec_keeps_freq_gate {i : Instr} {s t : State} (h : exec i s = .next t) (notInit : ∀ sr, i ≠ .init sr)
    (notNoteon : ∀ note vel, i ≠ .noteon note vel) (notNoteoff : i ≠ .noteoff)
    (notOn : ∀ ch note vel, i ≠ .evnoteon ch note vel) (notOff : ∀ ch note vel, i ≠ .evnoteoff ch note vel) :
    t.freq = s.freq ∧ t.gate = s.gate := by
  cases i with
  | init sr => exact absurd rfl (notInit sr)
  | setp idx d =>
    obtain ⟨-, -, rfl⟩ := exec_setp_eq_next.mp h
    exact ⟨State.writeSnap_freq s idx d, State.writeSnap_gate s idx d⟩
  | update =>
    obtain ⟨-, -, -, -, rfl⟩ := exec_update_eq_next.mp h
    exact ⟨State.update_freq s, State.update_gate s⟩
  | noteon n v => exact absurd rfl (notNoteon n v)
  | noteoff => exact absurd rfl notNoteoff
  | tick =>
    obtain ⟨-, -, rfl⟩ := exec_tick_eq_next.mp h
    exact ⟨State.tick_freq s, State.tick_gate s⟩
  | block n =>
    obtain ⟨-, -, rfl⟩ := exec_block_eq_next.mp h
    exact ⟨ticks_freq (u32 n) s, ticks_gate (u32 n) s⟩
  | evnoteon ch n v => exact absurd rfl (notOn ch n v)
  | evnoteoff ch n v => exact absurd rfl (notOff ch n v)

/-- Settles O56, from the two frames: a cell that changed was written by a command its frame excludes. -/
theorem onlyManagerWritesTheStack : Obligations.OnlyManagerWritesTheStack := by
  unfold Obligations.OnlyManagerWritesTheStack
  intro i s t h
  constructor
  · intro changed
    by_contra other
    simp only [not_or, not_exists] at other
    obtain ⟨notInit, notOn, notOff⟩ := other
    exact changed (exec_keeps_vm h notInit notOn notOff)
  · intro changed
    by_contra other
    simp only [not_or, not_exists] at other
    obtain ⟨notInit, notNoteon, notNoteoff, notOn, notOff⟩ := other
    obtain ⟨freq, gate⟩ := exec_keeps_freq_gate h notInit notNoteon notNoteoff notOn notOff
    exact changed.elim (· freq) (· gate)

end Sys2Proof.Machine
end

section
/-! PROOFS. The legal command words, said once field by field, and their two other descriptions: the rows of 30_encoding.md R84 as masks and matches, and the illegal words of R88 with the port's answer to them. -/

namespace Sys2Proof

open Sys2Proof.Machine Sys2Proof.Safety

/-- What the format and the side condition of a command's row ask of `idx` and `data` (30 R83, R84), `HAS_VM` apart. -/
def Instr.FieldsFit (row : Instr) (w : Word) : Prop :=
  match row with
  | .init _ => Word.idx w = 0#8 ∧ Word.data w ≠ 0#32
  | .setp _ _ => (Word.idx w).toNat ≤ 14
  | .update | .noteoff | .tick => Word.idx w = 0#8 ∧ Word.data w = 0#32
  | .block _ => Word.idx w = 0#8
  | .noteon _ _ => Word.idx w = 0#8 ∧ ∀ k, (k = 7 ∨ 15 ≤ k ∧ k ≤ 31) → (Word.data w).getLsbD k = false
  | .evnoteon _ _ _ | .evnoteoff _ _ _ =>
    Word.idx w = 0#8 ∧ ∀ k, (k = 7 ∨ k = 15 ∨ 20 ≤ k ∧ k ≤ 31) → (Word.data w).getLsbD k = false

/-! ### The must-be-zero bits of formats N and E -/

theorem formatN_slices_eq_zero {d : Data} :
    (d.extractLsb' 7 1 = 0#1 ∧ d.extractLsb' 15 17 = 0#17) ↔
      ∀ k, (k = 7 ∨ 15 ≤ k ∧ k ≤ 31) → d.getLsbD k = false := by
  rw [extractLsb'_eq_zero, extractLsb'_eq_zero]
  constructor
  · rintro ⟨bit7, high⟩ k (rfl | ⟨h1, h2⟩)
    · exact bit7 7 le_rfl (by omega)
    · exact high k h1 (by omega)
  · intro zero
    exact ⟨fun k h1 h2 => zero k (by omega), fun k h1 h2 => zero k (by omega)⟩

theorem formatE_slices_eq_zero {d : Data} :
    (d.extractLsb' 7 1 = 0#1 ∧ d.extractLsb' 15 1 = 0#1 ∧ d.extractLsb' 20 12 = 0#12) ↔
      ∀ k, (k = 7 ∨ k = 15 ∨ 20 ≤ k ∧ k ≤ 31) → d.getLsbD k = false := by
  rw [extractLsb'_eq_zero, extractLsb'_eq_zero, extractLsb'_eq_zero]
  constructor
  · rintro ⟨bit7, bit15, high⟩ k (rfl | rfl | ⟨h1, h2⟩)
    · exact bit7 7 le_rfl (by omega)
    · exact bit15 15 le_rfl (by omega)
    · exact high k h1 (by omega)
  · intro zero
    exact ⟨fun k h1 h2 => zero k (by omega), fun k h1 h2 => zero k (by omega), fun k h1 h2 => zero k (by omega)⟩

/-! ### The decoder, field by field -/

theorem decode_opcode {w : Word} {i : Instr} (h : decode w = .ok i) : Word.op w = i.opcode := by
  obtain ⟨-, formats⟩ := decode_eq_ok h
  simp only [decodeInit_eq_ok, decodeSetp_eq_ok, decodeZ_eq_ok, decodeN_eq_ok, decodeBlock_eq_ok, decodeE_eq_ok] at formats
  obtain ⟨op, -, -, rfl⟩ | ⟨op, -, rfl⟩ | ⟨op, -, -, rfl⟩ | ⟨op, -, -, rfl⟩ | ⟨op, -, -, rfl⟩ | ⟨op, -, -, rfl⟩ |
    ⟨op, -, rfl⟩ | ⟨op, -, -, rfl⟩ | ⟨op, -, -, rfl⟩ := formats <;> exact op

/-- Under the opcode of a row the decoder accepts exactly the words whose fields fit that row. -/
theorem exists_decode_iff_of_opcode {w : Word} {row : Instr} (op : Word.op w = row.opcode) :
    (∃ i, decode w = .ok i) ↔ Word.zero w = 0#16 ∧ row.FieldsFit w := by
  by_cases zero : Word.zero w = 0#16
  · cases row <;> simp only [Instr.opcode] at op
    case init => simp [decode, zero, op, decodeInit_eq_ok, Instr.FieldsFit]
    case setp => simp [decode, zero, op, decodeSetp_eq_ok, Instr.FieldsFit]
    case update | noteoff | tick => simp [decode, zero, op, decodeZ_eq_ok, Instr.FieldsFit]
    case block => simp [decode, zero, op, decodeBlock_eq_ok, Instr.FieldsFit]
    case noteon => simp [decode, zero, op, decodeN_eq_ok, formatN_slices_eq_zero, Instr.FieldsFit]
    case evnoteon | evnoteoff => simp [decode, zero, op, decodeE_eq_ok, formatE_slices_eq_zero, Instr.FieldsFit]
  · simp [decode, zero]

theorem exists_decode_with_opcode_iff {w : Word} {row : Instr} :
    (∃ i, decode w = .ok i ∧ i.opcode = row.opcode) ↔
      Word.op w = row.opcode ∧ Word.zero w = 0#16 ∧ row.FieldsFit w := by
  constructor
  · rintro ⟨i, dec, code⟩
    have op : Word.op w = row.opcode := (decode_opcode dec).trans code
    exact ⟨op, (exists_decode_iff_of_opcode op).mp ⟨i, dec⟩⟩
  · rintro ⟨op, fits⟩
    obtain ⟨i, dec⟩ := (exists_decode_iff_of_opcode op).mpr fits
    exact ⟨i, dec, (decode_opcode dec).symm.trans op⟩

/-! ### Masks and matches -/

theorem word_eq_iff_fields {w v : Word} :
    w = v ↔ Word.op w = Word.op v ∧ Word.idx w = Word.idx v ∧ Word.zero w = Word.zero v ∧ Word.data w = Word.data v := by
  have joined (u : Word) : Word.op u ++ (Word.idx u ++ (Word.zero u ++ Word.data u)) = u := by
    ext k hk
    simp only [Word.op, Word.idx, Word.zero, Word.data, BitVec.getElem_append, BitVec.getElem_extractLsb']
    grind
  constructor
  · rintro rfl
    exact ⟨rfl, rfl, rfl, rfl⟩
  · rintro ⟨op, idx, zero, data⟩
    rw [← joined w, ← joined v, op, idx, zero, data]

/-- A mask works on each field by itself. -/
theorem and_eq_iff_fields {w mask pattern : Word} :
    w &&& mask = pattern ↔
      Word.op w &&& Word.op mask = Word.op pattern ∧ Word.idx w &&& Word.idx mask = Word.idx pattern ∧
        Word.zero w &&& Word.zero mask = Word.zero pattern ∧ Word.data w &&& Word.data mask = Word.data pattern := by
  simp only [word_eq_iff_fields (v := pattern), Word.op, Word.idx, Word.zero, Word.data, BitVec.extractLsb'_and]

theorem pattern_fields (row : Instr) :
    Word.op row.pattern = row.opcode ∧ Word.idx row.pattern = 0#8 ∧ Word.zero row.pattern = 0#16 ∧
      Word.data row.pattern = 0#32 := by
  cases row <;> simp only [Instr.pattern, Instr.opcode] <;> decide

/-- Every mask of the table holds the whole opcode and the whole reserved field. -/
theorem mask_op_zero (row : Instr) : Word.op row.mask = BitVec.allOnes 8 ∧ Word.zero row.mask = BitVec.allOnes 16 := by
  cases row <;> simp only [Instr.mask] <;> decide

theorem matches_iff_fields {w : Word} {row : Instr} :
    w &&& row.mask = row.pattern ↔ Word.op w = row.opcode ∧ Word.zero w = 0#16 ∧
      Word.idx w &&& Word.idx row.mask = 0#8 ∧ Word.data w &&& Word.data row.mask = 0#32 := by
  obtain ⟨maskOp, maskZero⟩ := mask_op_zero row
  obtain ⟨op, idx, zero, data⟩ := pattern_fields row
  rw [and_eq_iff_fields, maskOp, maskZero, op, idx, zero, data, BitVec.and_allOnes, BitVec.and_allOnes]
  tauto

/-- Masked bits are zero iff each bit the mask selects is. -/
theorem and_eq_zero_iff_bits {n : Nat} {x mask : BitVec n} :
    x &&& mask = 0#n ↔ ∀ k, mask.getLsbD k = true → x.getLsbD k = false := by
  constructor
  · intro h k selected
    have bit := congrArg (fun z => z.getLsbD k) h
    simpa [selected] using bit
  · intro h
    apply BitVec.eq_of_getLsbD_eq
    intro k _
    cases selected : mask.getLsbD k <;> simp [selected, h]

theorem formatN_mask_bit {k : Nat} : (0xFFFF8080#32).getLsbD k = true ↔ (k = 7 ∨ 15 ≤ k ∧ k ≤ 31) := by
  rcases Nat.lt_or_ge k 32 with small | large
  · revert k
    decide
  · rw [BitVec.getLsbD_of_ge _ _ large]
    simp
    omega

theorem formatE_mask_bit {k : Nat} : (0xFFF08080#32).getLsbD k = true ↔ (k = 7 ∨ k = 15 ∨ 20 ≤ k ∧ k ≤ 31) := by
  rcases Nat.lt_or_ge k 32 with small | large
  · revert k
    decide
  · rw [BitVec.getLsbD_of_ge _ _ large]
    simp
    omega

/-- Outside SETP the mask holds the whole `idx` field. -/
theorem mask_idx (row : Instr) :
    Word.idx row.mask = match row with
      | .setp _ _ => 0#8
      | .init _ | .update | .noteon _ _ | .noteoff | .tick | .block _ | .evnoteon _ _ _ | .evnoteoff _ _ _ =>
        BitVec.allOnes 8 := by
  cases row <;> simp only [Instr.mask] <;> decide

theorem mask_data (row : Instr) :
    Word.data row.mask = match row with
      | .init _ | .setp _ _ | .block _ => 0#32
      | .update | .noteoff | .tick => BitVec.allOnes 32
      | .noteon _ _ => 0xFFFF8080#32
      | .evnoteon _ _ _ | .evnoteoff _ _ _ => 0xFFF08080#32 := by
  cases row <;> simp only [Instr.mask] <;> decide

/-- What the mask selects of `idx` and `data`, with the row's side condition, is what the row's format asks of them. -/
theorem masked_fields_iff_fieldsFit {hasVM : Bool} {w : Word} {row : Instr} :
    (Word.idx w &&& Word.idx row.mask = 0#8 ∧ Word.data w &&& Word.data row.mask = 0#32) ∧ SideCondition hasVM row w ↔
      row.FieldsFit w ∧ (row.opcode = 0x10#8 ∨ row.opcode = 0x11#8 → hasVM = true) := by
  rw [mask_idx, mask_data]
  cases row <;> simp only [Instr.opcode, Instr.FieldsFit, SideCondition, BitVec.and_allOnes, BitVec.and_zero]
  case init => simp [Nat.one_le_iff_ne_zero, ← BitVec.toNat_inj]
  case setp | update | noteoff | tick | block => simp
  case noteon => simp [and_eq_zero_iff_bits (mask := 0xFFFF8080#32), formatN_mask_bit]
  case evnoteon | evnoteoff => simp [and_eq_zero_iff_bits (mask := 0xFFF08080#32), formatE_mask_bit]

/-- Settles O3: both sides say of the four fields what the row asks of them. -/
theorem wordSpellsCommandIffMaskMatches : Obligations.WordSpellsCommandIffMaskMatches := by
  unfold Obligations.WordSpellsCommandIffMaskMatches
  intro hasVM w row
  calc (∃ i, decode w = .ok i ∧ i.opcode = row.opcode ∧ (i.opcode = 0x10#8 ∨ i.opcode = 0x11#8 → hasVM = true))
    _ ↔ (∃ i, decode w = .ok i ∧ i.opcode = row.opcode) ∧
          (row.opcode = 0x10#8 ∨ row.opcode = 0x11#8 → hasVM = true) := by
      constructor
      · rintro ⟨i, dec, code, vm⟩
        exact ⟨⟨i, dec, code⟩, code ▸ vm⟩
      · rintro ⟨⟨i, dec, code⟩, vm⟩
        exact ⟨i, dec, code, code ▸ vm⟩
    _ ↔ w &&& row.mask = row.pattern ∧ SideCondition hasVM row w := by
      rw [exists_decode_with_opcode_iff, matches_iff_fields, and_assoc, and_assoc, ← masked_fields_iff_fieldsFit]
      tauto

/-! ### Illegal words -/

/-- Under the opcode of a row the legal words are those whose fields fit that row. -/
theorem not_illegal_iff_of_opcode {w : Word} {row : Instr} (op : Word.op w = row.opcode) :
    ¬Illegal w ↔ Word.zero w = 0#16 ∧ row.FieldsFit w := by
  cases row <;> simp only [Instr.opcode] at op
  case init => simp [Illegal, op, Instr.FieldsFit, ← BitVec.toNat_inj]
  case setp => simp [Illegal, op, Instr.FieldsFit, Nat.lt_succ_iff]
  case update | noteoff | tick | block | noteon | evnoteon | evnoteoff => simp [Illegal, op, Instr.FieldsFit]

/-- An opcode of no row is one of those 30 R87 reserves. -/
theorem reserved_of_no_row {op : BitVec 8} (noRow : ∀ row : Instr, op ≠ row.opcode) :
    op.toNat = 0x00 ∨ (0x08 ≤ op.toNat ∧ op.toNat ≤ 0x0F) ∨ 0x12 ≤ op.toNat := by
  have init : op ≠ 0x01#8 := noRow (.init 0#32)
  have setp : op ≠ 0x02#8 := noRow (.setp 0#8 0#32)
  have update : op ≠ 0x03#8 := noRow .update
  have noteon : op ≠ 0x04#8 := noRow (.noteon 0#7 0#7)
  have noteoff : op ≠ 0x05#8 := noRow .noteoff
  have tick : op ≠ 0x06#8 := noRow .tick
  have block : op ≠ 0x07#8 := noRow (.block 0#32)
  have evnoteon : op ≠ 0x10#8 := noRow (.evnoteon 0#4 0#7 0#7)
  have evnoteoff : op ≠ 0x11#8 := noRow (.evnoteoff 0#4 0#7 0#7)
  bv_omega

/-- The decoder accepts exactly the words that are not illegal (30 R88, R89). -/
theorem exists_decode_iff_not_illegal {w : Word} : (∃ i, decode w = .ok i) ↔ ¬Illegal w := by
  by_cases known : ∃ row : Instr, Word.op w = row.opcode
  · obtain ⟨row, op⟩ := known
    rw [exists_decode_iff_of_opcode op, not_illegal_iff_of_opcode op]
  · have noRow : ∀ row : Instr, Word.op w ≠ row.opcode := not_exists.mp known
    have illegal : Illegal w := .inl (reserved_of_no_row noRow)
    have rejected : ¬∃ i, decode w = .ok i := fun ⟨i, dec⟩ => noRow i (decode_opcode dec)
    exact iff_of_false rejected (not_not.mpr illegal)

theorem illegal_iff_decode_error {w : Word} : Illegal w ↔ ∃ e, decode w = .error e := by
  rw [← not_iff_not, ← exists_decode_iff_not_illegal]
  cases decode w <;> simp

/-- Without extension VM its two commands are refused before anything else is looked at (60 R312). -/
theorem exec_of_noVM {i : Instr} {s : State} (event : i.opcode = 0x10#8 ∨ i.opcode = 0x11#8)
    (noVM : s.params.hasVM = false) : exec i s = .refused .noVM := by
  cases i with
  | evnoteon ch note vel => simp [exec, execEvnoteon, noVM]
  | evnoteoff ch note vel => simp [exec, execEvnoteoff, noVM]
  | init | setp | update | noteon | noteoff | tick | block => simp [Instr.opcode] at event

theorem runWord_of_error {w : Word} {e : IllegalReason} (s : State) (h : decode w = .error e) :
    runWord w s = .refused .illegalWord := by
  simp [runWord, h]

theorem runWord_of_ok {w : Word} {i : Instr} (s : State) (h : decode w = .ok i) : runWord w s = exec i s := by
  simp [runWord, h]

/-- A refused word leaves the refusal mark and nothing else (60 R312). -/
theorem present_of_refused {w : Word} {s : State} {r : Refusal} (h : runWord w s = .refused r) :
    present s w = { s with refusalMark := s.refusalMark <|> some r } := by
  rw [present, h, settle]

/-- Settles O4: the decoder's verdict is R88's, and every refusal leaves only its mark. -/
theorem illegalWordsAreRefused : Obligations.IllegalWordsAreRefused := by
  unfold Obligations.IllegalWordsAreRefused
  refine ⟨fun w => illegal_iff_decode_error, ?_, ?_⟩
  · intro w s illegal
    obtain ⟨e, dec⟩ := illegal_iff_decode_error.mp illegal
    have refused := runWord_of_error s dec
    exact ⟨refused, present_of_refused refused⟩
  · intro w s legal event noVM
    obtain ⟨i, dec⟩ := exists_decode_iff_not_illegal.mpr legal
    have refused : runWord w s = .refused .noVM :=
      (runWord_of_ok s dec).trans (exec_of_noVM (decode_opcode dec ▸ event) noVM)
    exact ⟨refused, present_of_refused refused⟩

end Sys2Proof
end

section
/-! PROOFS. The stateless helpers as functions on the real line: the two knob maps, the soft clip, the fold map, the waveshape blend (40_primitives.md R113 to R117). -/

namespace Sys2Proof.Machine

open Sys2Proof.Safety

/-! ### Knob maps (R113, R114) -/

theorem one_lt_quotient {lo hi : Val} (lo_pos : 0 < lo.real) (lo_lt : lo.real < hi.real) : 1 < (hi.div lo).real := by
  rw [Val.real_div]
  exact (one_lt_div lo_pos).mpr lo_lt

/-- The exponential map depends on its bounds through the real number their quotient stands for. -/
theorem real_expmap_of_quotient (p : Prim) {k lo hi q : Val} (lo_pos : 0 < lo.real) (lo_lt : lo.real < hi.real)
    (quotient : q.real = hi.real / lo.real) : (expmap p k lo hi).real = lo.real * (pow p q k).real := by
  have base := one_pos.trans (one_lt_quotient lo_pos lo_lt)
  have same : (hi.div lo).real = q.real := by rw [Val.real_div, quotient]
  rw [real_expmap, powFn_congr p base.le (fun zero => absurd zero base.ne') same rfl]

theorem expmap_zero (p : Prim) {k lo hi : Val} (lo_pos : 0 < lo.real) (lo_lt : lo.real < hi.real) (hk : k.real = 0) :
    (expmap p k lo hi).real = lo.real := by
  have base := one_pos.trans (one_lt_quotient lo_pos lo_lt)
  rw [real_expmap, powFn_pow_zero p base hk, mul_one]

theorem expmap_one (p : Prim) {k lo hi : Val} (lo_pos : 0 < lo.real) (lo_lt : lo.real < hi.real) (hk : k.real = 1) :
    (expmap p k lo hi).real = hi.real := by
  have base := one_pos.trans (one_lt_quotient lo_pos lo_lt)
  rw [real_expmap, powFn_pow_one p base.le hk, Val.real_div, mul_div_cancel₀ _ lo_pos.ne']

theorem expmap_lt (p : Prim) {k k' lo hi : Val} (lo_pos : 0 < lo.real) (lo_lt : lo.real < hi.real)
    (hk : k.real < k'.real) : (expmap p k lo hi).real < (expmap p k' lo hi).real := by
  rw [real_expmap, real_expmap]
  exact mul_lt_mul_of_pos_left (powFn_pow_lt_right p (one_lt_quotient lo_pos lo_lt) hk) lo_pos

/-- Settles O26: the formula and the two end points of R113. -/
theorem expMapEndpoints : Obligations.ExpMapEndpoints := by
  unfold Obligations.ExpMapEndpoints
  intro m lo hi lo_pos lo_lt
  exact ⟨fun k q => real_expmap_of_quotient m lo_pos lo_lt, fun k => expmap_zero m lo_pos lo_lt,
    fun k => expmap_one m lo_pos lo_lt⟩

/-- The ADSR time map is the exponential map of the curved knob. -/
theorem adsrTime_eq_expmap (p : Prim) (k lo hi c : Val) : adsrTime p k lo hi c = expmap p (pow p k c) lo hi := rfl

theorem adsrTime_zero (p : Prim) {k lo hi c : Val} (lo_pos : 0 < lo.real) (lo_lt : lo.real < hi.real)
    (c_pos : 0 < c.real) (hk : k.real = 0) : (adsrTime p k lo hi c).real = lo.real := by
  rw [adsrTime_eq_expmap, expmap_zero p lo_pos lo_lt (powFn_zero_pow p hk c_pos)]

theorem adsrTime_one (p : Prim) {k lo hi : Val} (c : Val) (lo_pos : 0 < lo.real) (lo_lt : lo.real < hi.real)
    (hk : k.real = 1) : (adsrTime p k lo hi c).real = hi.real := by
  rw [adsrTime_eq_expmap, expmap_one p lo_pos lo_lt (powFn_one_pow p c hk)]

theorem adsrTime_lt (p : Prim) {k k' lo hi c : Val} (lo_pos : 0 < lo.real) (lo_lt : lo.real < hi.real)
    (c_pos : 0 < c.real) (k_nonneg : 0 ≤ k.real) (hk : k.real < k'.real) :
    (adsrTime p k lo hi c).real < (adsrTime p k' lo hi c).real := by
  rw [adsrTime_eq_expmap, adsrTime_eq_expmap]
  exact expmap_lt p lo_pos lo_lt (powFn_pow_lt_left p c_pos k_nonneg hk)

/-- Between the ends of the knob the time lies between the end values, by comparison with a knob at each end. -/
theorem adsrTime_mem (p : Prim) {k lo hi c : Val} (lo_pos : 0 < lo.real) (lo_lt : lo.real < hi.real)
    (c_pos : 0 < c.real) (hk : InUnit k) : lo.real ≤ (adsrTime p k lo hi c).real ∧ (adsrTime p k lo hi c).real ≤ hi.real := by
  obtain ⟨k_nonneg, k_le_one⟩ := hk
  have zero : (Val.rat 0).real = 0 := by simp
  have one : (Val.rat 1).real = 1 := by simp
  constructor
  · rcases k_nonneg.eq_or_lt with at_zero | pos
    · exact (adsrTime_zero p lo_pos lo_lt c_pos at_zero.symm).ge
    · rw [← adsrTime_zero p lo_pos lo_lt c_pos zero]
      exact (adsrTime_lt p lo_pos lo_lt c_pos zero.ge (zero.trans_lt pos)).le
  · rcases k_le_one.eq_or_lt with at_one | below
    · exact (adsrTime_one p c lo_pos lo_lt at_one).le
    · rw [← adsrTime_one p c lo_pos lo_lt one]
      exact (adsrTime_lt p lo_pos lo_lt c_pos k_nonneg (below.trans_eq one.symm)).le

/-- Settles O25: the time map is the exponential map of the curved knob, so it is exact at the ends and strictly increasing. -/
theorem adsrTimeMap : Obligations.AdsrTimeMap := by
  unfold Obligations.AdsrTimeMap
  intro m tMin tMax c min_pos min_lt c_pos
  exact ⟨fun k q _ quotient => real_expmap_of_quotient m min_pos min_lt quotient,
    fun k => adsrTime_zero m min_pos min_lt c_pos, fun k => adsrTime_one m c min_pos min_lt,
    fun k k' k_nonneg k_lt _ => adsrTime_lt m min_pos min_lt c_pos k_nonneg k_lt,
    fun k => adsrTime_mem m min_pos min_lt c_pos⟩

/-! ### The soft clip (R115) -/

/-- The default curve `u·(27 + u²)/(27 + 9u²)`: the difference of two values has the sign of `(y − x)·(3(x − y)² + (9 − xy)²)`. -/
theorem softCurve_mono {x y : ℝ} (h : x ≤ y) :
    x * (27 + x ^ 2) / (27 + 9 * x ^ 2) ≤ y * (27 + y ^ 2) / (27 + 9 * y ^ 2) := by
  rw [div_le_div_iff₀ (by positivity) (by positivity), ← sub_nonneg]
  have gap : y * (27 + y ^ 2) * (27 + 9 * x ^ 2) - x * (27 + x ^ 2) * (27 + 9 * y ^ 2) =
      9 * ((y - x) * (3 * (x - y) ^ 2 + (9 - x * y) ^ 2)) := by ring
  have := sub_nonneg.mpr h
  rw [gap]
  positivity

theorem limiter_odd (p : Prim) {u v : Val} (h : v.real = -u.real) : (limiter p v).real = -(limiter p u).real := by
  cases p with
  | reference =>
    rw [real_limiter_reference, real_limiter_reference, h]
    ring
  | own => exact Config.num.limiter.odd u v h

theorem limiter_mono (p : Prim) {u v : Val} (h : u.real ≤ v.real) : (limiter p u).real ≤ (limiter p v).real := by
  cases p with
  | reference =>
    rw [real_limiter_reference, real_limiter_reference]
    exact softCurve_mono h
  | own => exact Config.num.limiter.mono u v h

/-- The default curve reaches 1 at 3 and, being odd, -1 at -3. -/
theorem limiter_reference_three {u : Val} (h : u.real = 3) : (limiter .reference u).real = 1 := by
  rw [real_limiter_reference, h]
  norm_num

theorem limiter_reference_neg_three {u : Val} (h : u.real = -3) : (limiter .reference u).real = -1 := by
  rw [limiter_odd .reference (u := .rat 3) (by simp [h]), limiter_reference_three (by simp)]

/-- On [-3, 3] the limiter is in [-1, 1]: the default curve by its end values, an arbitrary one by its contract. -/
theorem limiter_inBip (p : Prim) {u : Val} (lower : -3 ≤ u.real) (upper : u.real ≤ 3) : InBip (limiter p u) := by
  cases p with
  | reference =>
    have atLower : (limiter .reference (.rat (-3))).real = -1 := limiter_reference_neg_three (by simp)
    have atUpper : (limiter .reference (.rat 3)).real = 1 := limiter_reference_three (by simp)
    have fromLower := limiter_mono .reference (u := .rat (-3)) (v := u) (by simpa using lower)
    have toUpper := limiter_mono .reference (u := u) (v := .rat 3) (by simpa using upper)
    exact ⟨atLower ▸ fromLower, atUpper ▸ toUpper⟩
  | own => exact Config.num.limiter.bounded u

theorem softClip_odd (p : Prim) {x y : Val} (h : y.real = -x.real) : (softClip p y).real = -(softClip p x).real := by
  refine limiter_odd p ?_
  simp only [Val.real_clamp, Val.real_rat, h]
  push_cast
  rw [min_max_distrib_right, ← max_neg_neg, ← min_neg_neg, neg_neg]
  norm_num

theorem softClip_mono (p : Prim) {x y : Val} (h : x.real ≤ y.real) : (softClip p x).real ≤ (softClip p y).real := by
  refine limiter_mono p ?_
  rw [Val.real_clamp, Val.real_clamp]
  gcongr

theorem softClip_inBip (p : Prim) (x : Val) : InBip (softClip p x) := by
  have lower := Val.le_clamp (v := x) (lo := .rat (-3)) (hi := .rat 3) (by norm_num)
  have upper := Val.clamp_le x (.rat (-3)) (.rat 3)
  rw [Val.real_rat] at lower upper
  exact limiter_inBip p (by exact_mod_cast lower) (by exact_mod_cast upper)

/-- On [-3, 3] the clamp before the limiter changes nothing. -/
theorem softClip_eq_limiter (p : Prim) {x : Val} (lower : -3 ≤ x.real) (upper : x.real ≤ 3) :
    softClip p x = limiter p x := by
  rw [softClip, Val.clamp_of_mem (by simpa using lower) (by simpa using upper)]

theorem softClip_reference_of_three_le {x : Val} (h : 3 ≤ x.real) : (softClip .reference x).real = 1 := by
  refine limiter_reference_three ?_
  simp [h]

theorem softClip_reference_of_le_neg_three {x : Val} (h : x.real ≤ -3) : (softClip .reference x).real = -1 := by
  rw [softClip_odd .reference (x := x.neg) (by simp), softClip_reference_of_three_le (by rw [Val.real_neg]; linarith)]

/-- Settles O27: the three laws of the limiter pass through the clamp; the default curve is exact at ±3. -/
theorem softClipProperties : Obligations.SoftClipProperties := by
  unfold Obligations.SoftClipProperties
  refine ⟨fun p x y => softClip_odd p, softClip_inBip, fun p x y => softClip_mono p, fun x lower upper => ?_,
    fun x => ⟨softClip_reference_of_three_le, softClip_reference_of_le_neg_three⟩⟩
  rw [softClip_eq_limiter .reference lower upper, real_limiter_reference, pow_two]

/-! ### The fold map and the wavefold (R116)

Every real number lies in a rising segment `[4n − 1, 4n + 1]` or in a falling one `[4n + 1, 4n + 3]`; the map is said once
on each, and its period, range and oddness are read off. -/

theorem tri4_congr {u v : Val} (h : u.real = v.real) : (tri4 u).real = (tri4 v).real := by
  rw [real_tri4, real_tri4, h]

theorem tri4_rising {u : Val} (n : ℤ) (lower : 4 * n - 1 ≤ u.real) (upper : u.real ≤ 4 * n + 1) :
    (tri4 u).real = u.real - 4 * n := by
  have floor : ⌊(u.real + 1) / 4⌋ = n := by
    rw [Int.floor_eq_iff]
    constructor <;> linarith
  rw [real_tri4, floor, abs_of_nonpos (by linarith)]
  ring

theorem tri4_falling {u : Val} (n : ℤ) (lower : 4 * n + 1 ≤ u.real) (upper : u.real ≤ 4 * n + 3) :
    (tri4 u).real = 2 - (u.real - 4 * n) := by
  rcases upper.eq_or_lt with last | inside
  · rw [tri4_rising (n + 1) (by push_cast; linarith) (by push_cast; linarith)]
    push_cast
    linarith
  · have floor : ⌊(u.real + 1) / 4⌋ = n := by
      rw [Int.floor_eq_iff]
      constructor <;> linarith
    rw [real_tri4, floor, abs_of_nonneg (by linarith)]
    ring

theorem exists_tri4_segment (u : Val) :
    ∃ n : ℤ, (4 * n - 1 ≤ u.real ∧ u.real ≤ 4 * n + 1) ∨ (4 * n + 1 ≤ u.real ∧ u.real ≤ 4 * n + 3) := by
  refine ⟨⌊(u.real + 1) / 4⌋, ?_⟩
  have lower := Int.floor_le ((u.real + 1) / 4)
  have upper := Int.lt_floor_add_one ((u.real + 1) / 4)
  rcases le_total u.real (4 * ⌊(u.real + 1) / 4⌋ + 1) with rising | falling
  · exact .inl ⟨by linarith, rising⟩
  · exact .inr ⟨falling, by linarith⟩

theorem tri4_inBip (u : Val) : InBip (tri4 u) := by
  obtain ⟨n, ⟨lower, upper⟩ | ⟨lower, upper⟩⟩ := exists_tri4_segment u
  · rw [InBip, tri4_rising n lower upper]
    constructor <;> linarith
  · rw [InBip, tri4_falling n lower upper]
    constructor <;> linarith

theorem tri4_add_four {u v : Val} (h : v.real = u.real + 4) : (tri4 v).real = (tri4 u).real := by
  obtain ⟨n, ⟨lower, upper⟩ | ⟨lower, upper⟩⟩ := exists_tri4_segment u
  · rw [tri4_rising n lower upper, tri4_rising (n + 1) (by push_cast; linarith) (by push_cast; linarith)]
    push_cast
    linarith
  · rw [tri4_falling n lower upper, tri4_falling (n + 1) (by push_cast; linarith) (by push_cast; linarith)]
    push_cast
    linarith

/-- Negation carries a rising segment to a rising one and a falling segment to a falling one. -/
theorem tri4_odd {u v : Val} (h : v.real = -u.real) : (tri4 v).real = -(tri4 u).real := by
  obtain ⟨n, ⟨lower, upper⟩ | ⟨lower, upper⟩⟩ := exists_tri4_segment u
  · rw [tri4_rising n lower upper, tri4_rising (-n) (by push_cast; linarith) (by push_cast; linarith)]
    push_cast
    linarith
  · rw [tri4_falling n lower upper, tri4_falling (-n - 1) (by push_cast; linarith) (by push_cast; linarith)]
    push_cast
    linarith

theorem tri4_of_inBip {u : Val} (h : InBip u) : (tri4 u).real = u.real := by
  obtain ⟨lower, upper⟩ := h
  rw [tri4_rising 0 (by simpa using lower) (by simpa using upper)]
  simp

/-- The wavefold is the fold map of the driven sample. -/
theorem fold_eq_tri4 {s a u : Val} (h : u.real = s.real * (1 + 12 * a.real)) : (fold s a).real = (tri4 u).real := by
  rw [real_fold]
  exact tri4_congr (by simp [foldGain, h])

theorem fold_inBip (s a : Val) : InBip (fold s a) := tri4_inBip _

theorem fold_odd {s s' : Val} (a : Val) (h : s'.real = -s.real) : (fold s' a).real = -(fold s a).real :=
  tri4_odd (by simp [h])

theorem fold_zero {s a : Val} (ha : a.real = 0) (hs : InBip s) : (fold s a).real = s.real := by
  rw [fold_eq_tri4 (u := s) (by simp [ha]), tri4_of_inBip hs]

/-- Settles O28, from the two segments of the fold map. -/
theorem wavefoldProperties : Obligations.WavefoldProperties := by
  unfold Obligations.WavefoldProperties
  refine ⟨fun u v => tri4_add_four, tri4_inBip, fun u lower upper => tri4_of_inBip ⟨lower, upper⟩, ?_, ?_,
    fun s a u => fold_eq_tri4, fun s a => ⟨fold_inBip s a, fun s' => fold_odd a⟩, fun s a => fold_zero⟩
  · intro u lower upper
    rw [tri4_falling 0 (by simpa using lower) (by simpa using upper)]
    simp
  · intro u lower upper
    rw [tri4_rising 1 (by push_cast; linarith) (by push_cast; linarith)]
    simp

/-! ### The waveshape blend (R117) -/

/-- The cross-fade of stage `i` at position `h`. -/
theorem real_crossFade_stage (h a b : Val) (i : ℤ) :
    (crossFade (((Val.rat 3).mul h).sub (.rat i)) a b).real =
      (1 - (3 * h.real - i)) * a.real + (3 * h.real - i) * b.real := by
  simp

theorem floor_three_mul_eq {h : Val} (i : ℤ) (lower : i ≤ 3 * h.real) (upper : 3 * h.real < i + 1) :
    ((Val.rat 3).mul h).floor = i := by
  rw [Val.floor_eq, Val.real_mul, Val.real_rat]
  exact Int.floor_eq_iff.mpr ⟨by exact_mod_cast lower, by exact_mod_cast upper⟩

theorem shapeBlend_first (p : Prim) (s : Val) {h : Val} (lower : 0 ≤ h.real) (upper : h.real < 1 / 3) :
    (shapeBlend p s h).real = (1 - 3 * h.real) * s.real + 3 * h.real * (shape1 p s).real := by
  have stage : min ((Val.rat 3).mul h).floor 2 = 0 := by
    rw [floor_three_mul_eq 0 (by push_cast; linarith) (by push_cast; linarith)]
    rfl
  simp only [shapeBlend, stage]
  rw [if_pos le_rfl, real_crossFade_stage, shape0]
  push_cast
  ring

theorem shapeBlend_second (p : Prim) (s : Val) {h : Val} (lower : 1 / 3 ≤ h.real) (upper : h.real < 2 / 3) :
    (shapeBlend p s h).real = (2 - 3 * h.real) * (shape1 p s).real + (3 * h.real - 1) * (shape2 p s).real := by
  have stage : min ((Val.rat 3).mul h).floor 2 = 1 := by
    rw [floor_three_mul_eq 1 (by push_cast; linarith) (by push_cast; linarith)]
    rfl
  simp only [shapeBlend, stage]
  rw [if_neg (by decide), if_pos trivial, real_crossFade_stage]
  push_cast
  ring

/-- The index of the last stage is capped, so the stage takes in the position 1. -/
theorem shapeBlend_third (p : Prim) (s : Val) {h : Val} (lower : 2 / 3 ≤ h.real) :
    (shapeBlend p s h).real = (3 - 3 * h.real) * (shape2 p s).real + (3 * h.real - 2) * (shape3 p s).real := by
  have stage : min ((Val.rat 3).mul h).floor 2 = 2 := by
    rw [min_eq_right_iff, Val.floor_eq, Val.real_mul, Val.real_rat, Int.le_floor]
    push_cast
    linarith
  simp only [shapeBlend, stage]
  rw [if_neg (by decide), if_neg (by decide), real_crossFade_stage]
  push_cast
  ring

theorem shape3_reference_of_nonneg {s : Val} (h : 0 ≤ s.real) : (shape3 .reference s).real = (shape1 .reference s).real := by
  simp [shape3, shape1, h]

theorem shape3_reference_of_neg {s : Val} (h : s.real < 0) : (shape3 .reference s).real = s.real := by
  simp [shape3, h.not_ge]

/-- Settles O29: stage by stage; where two stages meet both cross-fades are the shape between them. -/
theorem shapeBlendStages : Obligations.ShapeBlendStages := by
  unfold Obligations.ShapeBlendStages
  refine ⟨fun p s h lower upper => ?_, fun p s h lower upper => ?_, fun p s h lower _ => shapeBlend_third p s lower,
    real_cubicClip, fun s => by simp [shape2],
    fun s => ⟨shape3_reference_of_nonneg, shape3_reference_of_neg⟩⟩
  · rcases upper.eq_or_lt with meet | inside
    · rw [shapeBlend_second p s meet.ge (by linarith), meet]
      ring
    · exact shapeBlend_first p s lower inside
  · rcases upper.eq_or_lt with meet | inside
    · rw [shapeBlend_third p s meet.ge, meet]
      ring
    · exact shapeBlend_second p s lower inside

end Sys2Proof.Machine
end

section
/-! PROOFS. The reference primitives: the oscillator and its morph map, the ladder, the clocked sample-and-hold (40_primitives.md R118 to R126). -/

namespace Sys2Proof.Machine

open Sys2Proof.Safety

/-! ### The waveforms (R121) -/

theorem sawWave_of_lt {pw ph : Val} (h : ph.real < pw.real) : (sawWave pw ph).real = -1 + 2 * ph.real / pw.real := by
  rw [sawWave, if_pos ((Val.lt_iff _ _).mpr h)]
  simp

theorem sawWave_of_le {pw ph : Val} (h : pw.real ≤ ph.real) :
    (sawWave pw ph).real = 1 - 2 * (ph.real - pw.real) / (1 - pw.real) := by
  rw [sawWave, if_neg (by simpa using h)]
  simp

/-- The rising part needs a width above 0 and the falling part one below 1, which a phase on that part supplies. -/
theorem sawWave_inBip (pw : Val) {ph : Val} (h : InPhase ph) : InBip (sawWave pw ph) := by
  obtain ⟨nonneg, below⟩ := h
  rcases lt_or_ge ph.real pw.real with rising | falling
  · have ratio_nonneg : 0 ≤ ph.real / pw.real := div_nonneg nonneg (nonneg.trans rising.le)
    have ratio_le : ph.real / pw.real ≤ 1 := div_le_one_of_le₀ rising.le (nonneg.trans rising.le)
    rw [InBip, sawWave_of_lt rising, mul_div_assoc]
    constructor <;> linarith
  · have rest : 0 ≤ 1 - pw.real := by linarith
    have ratio_nonneg : 0 ≤ (ph.real - pw.real) / (1 - pw.real) := div_nonneg (sub_nonneg.mpr falling) rest
    have ratio_le : (ph.real - pw.real) / (1 - pw.real) ≤ 1 := div_le_one_of_le₀ (by linarith) rest
    rw [InBip, sawWave_of_le falling, mul_div_assoc]
    constructor <;> linarith

theorem sawWave_congr {pw pw' : Val} (ph : Val) (h : pw.real = pw'.real) : (sawWave pw ph).real = (sawWave pw' ph).real := by
  rcases lt_or_ge ph.real pw.real with rising | falling
  · rw [sawWave_of_lt rising, sawWave_of_lt (h ▸ rising), h]
  · rw [sawWave_of_le falling, sawWave_of_le (h ▸ falling), h]

theorem waveOut_square_of_lt {pw ph : Val} (h : ph.real < pw.real) : (waveOut .square pw ph).real = 1 := by
  simp [waveOut, h]

theorem waveOut_square_of_le {pw ph : Val} (h : pw.real ≤ ph.real) : (waveOut .square pw ph).real = -1 := by
  simp [waveOut, h.not_gt]

theorem waveOut_triangle_of_lt (pw : Val) {ph : Val} (h : ph.real < 1 / 2) :
    (waveOut .triangle pw ph).real = -1 + 4 * ph.real := by
  rw [waveOut, sawWave_of_lt (by simpa using h)]
  push_cast [Val.real_rat]
  ring

theorem waveOut_triangle_of_le (pw : Val) {ph : Val} (h : 1 / 2 ≤ ph.real) :
    (waveOut .triangle pw ph).real = 3 - 4 * ph.real := by
  rw [waveOut, sawWave_of_le (by simpa using h)]
  push_cast [Val.real_rat]
  ring

theorem waveOut_inBip (w : Wave) (pw : Val) {ph : Val} (h : InPhase ph) : InBip (waveOut w pw ph) := by
  cases w with
  | square =>
    rcases lt_or_ge ph.real pw.real with high | low
    · rw [InBip, waveOut_square_of_lt high]
      norm_num
    · rw [InBip, waveOut_square_of_le low]
      norm_num
  | sawMorph => exact sawWave_inBip pw h
  | triangle => exact sawWave_inBip _ h

/-! ### The morph map (R118) -/

theorem real_sawMorphPw_reference (m : Val) : (sawMorphPw .reference m).real = 1 - m.real / 2 := by
  simp [sawMorphPw]

/-- An arbitrary map stays in [0, 1] by its clamp, the reference one by its formula. -/
theorem sawMorphPw_inUnit (p : Prim) {m : Val} (h : InUnit m) : InUnit (sawMorphPw p m) := by
  cases p with
  | reference =>
    obtain ⟨nonneg, le_one⟩ := h
    rw [InUnit, real_sawMorphPw_reference]
    constructor <;> linarith
  | own => exact clamp_inUnit _

/-- Settles O30: at morph 0 the width is 1 and the whole period rises, at morph 1 it is the triangle's. -/
theorem sawMorphWidth : Obligations.SawMorphWidth := by
  unfold Obligations.SawMorphWidth
  refine ⟨fun p m => sawMorphPw_inUnit p, real_sawMorphPw_reference, fun ph m phase => ⟨fun zero => ?_, fun one w => ?_⟩⟩
  · have width : (sawMorphPw .reference m).real = 1 := by rw [real_sawMorphPw_reference, zero]; norm_num
    rw [waveOut, sawWave_of_lt (phase.2.trans_eq width.symm), width, div_one]
  · have width : (sawMorphPw .reference m).real = (Val.rat (1 / 2)).real := by
      rw [real_sawMorphPw_reference, one]; norm_num
    exact sawWave_congr ph width

/-! ### The phases of the oscillator (R121) -/

@[simp] theorem real_advancePhases_pm (sr : Val) (c : OscPhases) (x : OscIn) :
    (advancePhases sr c x).pm.real = Int.fract (c.pm.real + x.f.real / sr.real) := by
  simp [advancePhases]

/-- Without sync the output oscillator is the master. -/
theorem advancePhases_ps_free (sr : Val) (c : OscPhases) {x : OscIn} (free : x.syncOn = false) :
    (advancePhases sr c x).ps = (advancePhases sr c x).pm := by
  simp [advancePhases, free]

theorem advancePhases_ps_running {sr : Val} {c : OscPhases} {x : OscIn} (sync : x.syncOn = true)
    (running : c.pm.real + x.f.real / sr.real < 1) :
    (advancePhases sr c x).ps.real = Int.fract (c.ps.real + x.fs.real / sr.real) := by
  simp [advancePhases, sync, running.not_ge]

theorem advancePhases_ps_wrapped {sr : Val} {c : OscPhases} {x : OscIn} (sync : x.syncOn = true)
    (wrapped : 1 ≤ c.pm.real + x.f.real / sr.real) :
    (advancePhases sr c x).ps.real =
      Int.fract (Int.fract (c.pm.real + x.f.real / sr.real) * x.fs.real / x.f.real) := by
  simp [advancePhases, sync, wrapped]

/-- An oscillator synchronised to a master of its own frequency stays on the master's phase: a wrap needs a frequency
above 0, so the restart divides by no zero. -/
theorem advancePhases_selfSync {sr : Val} {c : OscPhases} {x : OscIn} (phase : InPhase c.pm)
    (together : c.ps.real = c.pm.real) (self : x.fs.real = x.f.real) :
    (advancePhases sr c x).ps.real = (advancePhases sr c x).pm.real := by
  cases sync : x.syncOn with
  | false => rw [advancePhases_ps_free sr c sync]
  | true =>
    rw [real_advancePhases_pm]
    rcases lt_or_ge (c.pm.real + x.f.real / sr.real) 1 with running | wrapped
    · rw [advancePhases_ps_running sync running, together, self]
    · have moving : x.f.real ≠ 0 := by
        intro still
        rw [still, zero_div, add_zero] at wrapped
        exact phase.2.not_ge wrapped
      rw [advancePhases_ps_wrapped sync wrapped, self, mul_div_cancel_right₀ _ moving, Int.fract_fract]

/-- Settles O31: the step takes the sample of the phase it finds and then advances both phases. -/
theorem referenceOscillator : Obligations.ReferenceOscillator := by
  unfold Obligations.ReferenceOscillator
  constructor
  · intro sr pm ps f wave pw fs sync
    let c : OscPhases := ⟨pm, ps⟩
    let x : OscIn := ⟨f, wave, pw, sync, fs⟩
    obtain ⟨pm_phase, ps_phase⟩ := advancePhases_inPhase sr c x
    refine ⟨_, _, _, rfl, real_advancePhases_pm sr c x, ?_, advancePhases_ps_running (c := c) (x := x),
      advancePhases_ps_wrapped (c := c) (x := x), ?_, ?_, ?_, waveOut_inBip wave pw, pm_phase, ps_phase⟩
    · intro free
      exact (congrArg Val.real (advancePhases_ps_free sr c (x := x) free)).trans (real_advancePhases_pm sr c x)
    · rintro rfl
      exact ⟨waveOut_square_of_lt, waveOut_square_of_le⟩
    · rintro rfl
      exact ⟨sawWave_of_lt, sawWave_of_le⟩
    · rintro rfl
      exact ⟨waveOut_triangle_of_lt pw, waveOut_triangle_of_le pw⟩
  · intro sr pm ps f wave pw fs sync _ _ phase together self
    exact ⟨_, _, rfl, advancePhases_selfSync (c := ⟨pm, ps⟩) (x := ⟨f, wave, pw, sync, fs⟩) phase together self⟩

/-! ### The ladder (R123) -/

theorem real_poleCoeff (m : Prim) (sr fc : Val) :
    (poleCoeff m sr fc).real = 1 - (exp m ((((Val.rat (-2)).mul (pi m)).mul fc).div sr)).real := by
  simp [poleCoeff]

/-- Each stage moves by the coefficient towards the new value of the stage before, the first towards the input less the feedback. -/
theorem real_ladderCells (g res x : Val) (c : LadderCells) :
    let c' := ladderCells g res x c
    c'.s1.real = c.s1.real + g.real * (x.real - 4 * res.real * c.s4.real - c.s1.real) ∧
      c'.s2.real = c.s2.real + g.real * (c'.s1.real - c.s2.real) ∧
      c'.s3.real = c.s3.real + g.real * (c'.s2.real - c.s3.real) ∧
      c'.s4.real = c.s4.real + g.real * (c'.s3.real - c.s4.real) := by
  simp [ladderCells]

/-- Settles O32: one sample runs the four stages with the pole coefficient of the corner frequency. -/
theorem referenceLadder : Obligations.ReferenceLadder := by
  unfold Obligations.ReferenceLadder
  intro m sr fc res x a b c d
  have exponent : ((((Val.rat (-2)).mul (pi m)).mul fc).div sr).real = -2 * (pi m).real * fc.real / sr.real := by simp
  exact ⟨_, _, _, _, poleCoeff m sr fc, _, rfl, exponent, real_poleCoeff m sr fc,
    real_ladderCells (poleCoeff m sr fc) res x ⟨a, b, c, d⟩⟩

/-! ### The sample-and-hold (R126) -/

theorem holdStep_of_lt {sr rate : Val} (ν : Val) {c : HoldCells} (h : c.ph.real + rate.real / sr.real < 1) :
    holdStep sr rate ν c = ⟨c.ph.add (rate.div sr), c.h⟩ := by
  simp [holdStep, h.not_ge]

theorem holdStep_of_wrap {sr rate : Val} (ν : Val) {c : HoldCells} (h : 1 ≤ c.ph.real + rate.real / sr.real) :
    holdStep sr rate ν c = ⟨(c.ph.add (rate.div sr)).frac, ν⟩ := by
  simp [holdStep, h]

theorem holdAfter_concat (sr rate : Val) (νs : List Val) (ν : Val) (c : HoldCells) :
    holdAfter sr rate (νs ++ [ν]) c = holdStep sr rate ν (holdAfter sr rate νs c) := by
  simp [holdAfter]

/-- The clock has not wrapped after `n` ticks iff `n` is below `⌈SR/rate⌉`. -/
theorem lt_ceil_iff_clock_lt_one {sr rate : ℝ} (sr_pos : 0 < sr) (rate_pos : 0 < rate) (n : ℕ) :
    n < ⌈sr / rate⌉₊ ↔ n * (rate / sr) < 1 := by
  rw [Nat.lt_ceil, lt_div_iff₀ rate_pos, ← mul_div_assoc, div_lt_one sr_pos]

/-- Before the first wrap the clock phase counts the ticks and the held value is that of init. -/
theorem holdAfter_before_wrap {sr rate : Val} (sr_pos : 0 < sr.real) (rate_pos : 0 < rate.real) (νs : List Val)
    (before : νs.length < ⌈sr.real / rate.real⌉₊) :
    (holdAfter sr rate νs ⟨.rat 0, .rat 0⟩).ph.real = νs.length * (rate.real / sr.real) ∧
      (holdAfter sr rate νs ⟨.rat 0, .rat 0⟩).h = .rat 0 := by
  induction νs using List.reverseRecOn with
  | nil => simp [holdAfter]
  | append_singleton νs ν ih =>
    rw [List.length_append, List.length_singleton] at before
    obtain ⟨phase, held⟩ := ih (by omega)
    have count : ((νs.length + 1 : ℕ) : ℝ) * (rate.real / sr.real) =
        νs.length * (rate.real / sr.real) + rate.real / sr.real := by push_cast; ring
    have below := (lt_ceil_iff_clock_lt_one sr_pos rate_pos _).mp before
    rw [count, ← phase] at below
    rw [holdAfter_concat, holdStep_of_lt ν below, List.length_append, List.length_singleton, count]
    exact ⟨by simp [phase], held⟩

/-- At tick `⌈SR/rate⌉` the clock wraps for the first time and the draw of that tick is held. -/
theorem holdAfter_at_wrap {sr rate : Val} (sr_pos : 0 < sr.real) (rate_pos : 0 < rate.real) (νs : List Val) (ν : Val)
    (first : νs.length + 1 = ⌈sr.real / rate.real⌉₊) : (holdAfter sr rate (νs ++ [ν]) ⟨.rat 0, .rat 0⟩).h = ν := by
  obtain ⟨phase, -⟩ := holdAfter_before_wrap sr_pos rate_pos νs (by omega)
  have wrap := (lt_ceil_iff_clock_lt_one sr_pos rate_pos (νs.length + 1)).not.mp first.not_lt
  rw [holdAfter_concat, holdStep_of_wrap ν]
  rw [phase]
  push_cast at wrap
  linarith

/-- Settles O44: the clock counts up to its first wrap, and the held value changes only at a wrap. -/
theorem sampleAndHold : Obligations.SampleAndHold := by
  unfold Obligations.SampleAndHold
  refine ⟨fun sr rate ν ph h => ⟨fun running => ?_, fun wrapped => ?_⟩, fun sr rate νs sr_pos rate_pos => ⟨?_, ?_⟩⟩
  · exact ⟨_, holdStep_of_lt ν running, by simp⟩
  · exact ⟨_, holdStep_of_wrap ν wrapped, by simp⟩
  · intro before
    rw [(holdAfter_before_wrap sr_pos rate_pos νs before).2]
    simp
  · intro first
    cases νs using List.reverseRecOn with
    | nil =>
      have pos : 0 < ⌈sr.real / rate.real⌉₊ := Nat.ceil_pos.mpr (div_pos sr_pos rate_pos)
      exact absurd first pos.ne
    | append_singleton νs ν =>
      rw [List.length_append, List.length_singleton] at first
      rw [holdAfter_at_wrap sr_pos rate_pos νs ν first, List.getLast?_concat]

end Sys2Proof.Machine
end

section
/-! PROOFS. The life of a patch and a note: what INIT, SETP, NOTEON and NOTEOFF write and when they are refused (41_lifecycle.md R150 to R154). -/

namespace Sys2Proof.Machine

/-! ### When a command is refused, and why -/

theorem exec_init_eq_refused {sr : Data} {s : State} {q : Refusal} :
    exec (.init sr) s = .refused q ↔ u32 sr = 0 ∧ q = .illegalWord := by
  simp [exec, execInit, require_eq_refused]

/-- The index is checked before `V_INIT`, so the two refusals exclude each other. -/
theorem exec_setp_eq_refused {idx : BitVec 8} {d : Data} {s : State} {q : Refusal} :
    exec (.setp idx d) s = .refused q ↔
      (14 < idx.toNat ∧ q = .illegalWord) ∨ (idx.toNat ≤ 14 ∧ s.vInit = false ∧ q = .notInitialised) := by
  simp [exec, execSetp, require_eq_refused]

theorem exec_noteon_eq_refused {n : Note} {v : Velocity} {s : State} {q : Refusal} :
    exec (.noteon n v) s = .refused q ↔ s.vInit = false ∧ q = .notInitialised := by
  simp [exec, execNoteon, require_eq_refused]

theorem exec_noteoff_eq_refused {s : State} {q : Refusal} :
    exec .noteoff s = .refused q ↔ s.vInit = false ∧ q = .notInitialised := by
  simp [exec, execNoteoff, require_eq_refused]

/-! ### The cells INIT writes -/

@[simp] theorem noneWritten_getElem (j : Fin 15) : noneWritten[j] = false := by
  simp [noneWritten]

@[simp] theorem envInit_reference (sr : Val) : envInit .reference sr = .ref .idle (.rat 0) := rfl

@[simp] theorem ladderInit_reference_core (sr : Val) :
    (ladderInit .reference sr).core = .ref ⟨.rat 0, .rat 0, .rat 0, .rat 0⟩ := rfl

@[simp] theorem ladderInit_own_core (sr : Val) : (ladderInit .own sr).core = .own (Config.ladderInit sr) := rfl

@[simp] theorem oscInit_reference (sr : Val) : oscInit .reference sr = .ref ⟨.rat 0, .rat 0⟩ := rfl

@[simp] theorem oscInit_own (sr : Val) : oscInit .own sr = .own (Config.oscInit sr) := rfl

@[simp] theorem lfoInit_reference (sr : Val) : lfoInit .reference sr = LfoBank.zero := rfl

/-- The colored noise is no opaque generator: it starts at 0 under every instantiation (44 R238). -/
@[simp] theorem lfoInit_gCn (p : Prim) (sr : Val) : (lfoInit p sr).gCn = ⟨.rat 0, .rat 0⟩ := by
  cases p <;> rfl

@[simp] theorem VM.isHeld_empty (n : Note) : VM.empty.isHeld n = false := by
  simp [VM.isHeld, VM.empty]

theorem State.init_vm_of_hasVM {s : State} (r : Val) (h : s.params.hasVM = true) : (s.init r).vm = VM.empty := by
  simp [h]

theorem State.init_vm_of_not_hasVM {s : State} (r : Val) (h : s.params.hasVM = false) : (s.init r).vm = s.vm := by
  simp [h]

/-- Settles O12, cell by cell: INIT asks nothing of the state, and a parameter decides which generator a cell holds. -/
theorem initResult : Obligations.InitResult := by
  unfold Obligations.InitResult
  intro sr s
  refine ⟨fun rate => ⟨s.init (.rat (u32 sr)), exec_init_eq_next.mpr ⟨rate, rfl⟩, ?_⟩,
    fun zero => exec_init_eq_refused.mpr ⟨zero, rfl⟩⟩
  refine ⟨rfl, rfl, rfl, rfl, rfl, noneWritten_getElem, ?env, ?ladderRef, ?ladderOwn, ?oscRef, ?oscOwn, ?lfo,
    lfoInit_gCn _ _, rfl, rfl, ?vm, State.init_vm_of_not_hasVM _⟩
  case env => intro law; simp [law]
  case ladderRef => intro ladder; simp [ladder]
  case ladderOwn => intro ladder; simp [ladder]
  case oscRef => intro osc; simp [osc, oscBankInit]
  case oscOwn => intro osc; simp [osc, oscBankInit]
  case lfo => intro gens; simp [gens, LfoBank.zero]
  case vm =>
    intro vm
    rw [State.sp, State.init_vm_of_hasVM _ vm]
    exact ⟨rfl, VM.isHeld_empty, rfl, rfl, rfl⟩

/-! ### The snapshot register SETP writes -/

theorem State.writeSnap_snap_getElem (s : State) (i : BitVec 8) (d : Data) (j : Fin 15) :
    (s.writeSnap i d).snap[j] = if j.val = i.toNat then d else s.snap[j] := by
  simp [Vector.getElem_setIfInBounds, eq_comm]

theorem State.writeSnap_pw_getElem (s : State) (i : BitVec 8) (d : Data) (j : Fin 15) :
    (s.writeSnap i d).pw[j] = if j.val = i.toNat then true else s.pw[j] := by
  simp [markWritten, Vector.getElem_setIfInBounds, eq_comm]

theorem State.writeSnap_writeSnap (s : State) (i : BitVec 8) (d d' : Data) :
    (s.writeSnap i d).writeSnap i d' = s.writeSnap i d' := by
  simp [State.writeSnap, markWritten]

/-- Settles O13: of two words for one register the second overwrites the first, and its written bit is set either way. -/
theorem setpResult : Obligations.SetpResult := by
  unfold Obligations.SetpResult
  intro idx data s
  refine ⟨fun ready index => ?completes, fun index => exec_setp_eq_refused.mpr (.inl ⟨index, rfl⟩),
    fun index notReady => exec_setp_eq_refused.mpr (.inr ⟨index, notReady, rfl⟩)⟩
  case completes =>
    refine ⟨s.writeSnap idx data, exec_setp_eq_next.mpr ⟨index, ready, rfl⟩, s.writeSnap_snap_getElem idx data,
      s.writeSnap_pw_getElem idx data, rfl, ?lastStays⟩
    case lastStays =>
      intro data' u second
      obtain ⟨-, -, rfl⟩ := exec_setp_eq_next.mp second
      exact exec_setp_eq_next.mpr ⟨index, ready, s.writeSnap_writeSnap idx data data'⟩

/-! ### The note the Voice plays -/

@[simp] theorem env1Retrigger_ref (hard : Bool) (stage : Stage) (level : Val) :
    env1Retrigger hard (.ref stage level) = .ref .attack (if hard then .rat 0 else level) := rfl

/-- Settles O14: the Voice's note-on writes three cells, and the velocity is none of its arguments. -/
theorem noteonResult : Obligations.NoteonResult := by
  unfold Obligations.NoteonResult
  intro note vel s
  refine ⟨fun ready => ?completes, fun notReady => exec_noteon_eq_refused.mpr ⟨notReady, rfl⟩⟩
  case completes =>
    refine ⟨s.voiceNoteOn note, exec_noteon_eq_next.mpr ⟨ready, rfl⟩, rfl, rfl, rfl, ?retrigger, rfl⟩
    case retrigger =>
      intro stage level env
      rw [State.voiceNoteOn_env1, env, env1Retrigger_ref]

/-- Settles O17: the Voice's note-off is one write to the gate. -/
theorem noteoffResult : Obligations.NoteoffResult := by
  unfold Obligations.NoteoffResult
  intro s
  exact ⟨fun ready => exec_noteoff_eq_next.mpr ⟨ready, rfl⟩,
    fun notReady => exec_noteoff_eq_refused.mpr ⟨notReady, rfl⟩⟩

end Sys2Proof.Machine
end

section
/-! PROOFS. The Voice: the registers UPDATE derives from the snapshot, the pipeline of a TICK, and BLOCK as a run of TICKs (42_voice.md R170 to R184). -/

namespace Sys2Proof.Machine

open Sys2Proof.Safety

/-! ### When a command is refused, and why -/

/-- The checks of UPDATE in their order; each refusal needs the checks before it to hold, so the four exclude each other. -/
theorem exec_update_eq_refused {s : State} {q : Refusal} :
    exec .update s = .refused q ↔
      (s.vInit = false ∧ q = .notInitialised) ∨
      (s.vInit = true ∧ ((allWritten s.pw = false ∧ q = .snapshotIncomplete) ∨
        (allWritten s.pw = true ∧ ((2 < u32 (snapWord s.snap .oscMode) ∧ q = .badOscMode) ∨
          (u32 (snapWord s.snap .oscMode) ≤ 2 ∧ selReserved (snapWord s.snap .lfoSel) ≠ 0#29 ∧ q = .badLfoSel))))) := by
  simp [exec, execUpdate, require_eq_refused]

theorem exec_tick_eq_refused {s : State} {q : Refusal} :
    exec .tick s = .refused q ↔
      (s.vInit = false ∧ q = .notInitialised) ∨ (s.vInit = true ∧ s.vUpd = false ∧ q = .notUpdated) := by
  simp [exec, execTick, require_eq_refused]

theorem exec_block_eq_refused {n : Data} {s : State} {q : Refusal} :
    exec (.block n) s = .refused q ↔
      (s.vInit = false ∧ q = .notInitialised) ∨ (s.vInit = true ∧ s.vUpd = false ∧ q = .notUpdated) := by
  simp [exec, execBlock, require_eq_refused]

theorem allWritten_eq_false {pw : Vector Bool 15} : allWritten pw = false ↔ ∃ j : Fin 15, pw[j] = false := by
  rw [← Bool.not_eq_true, allWritten_eq_true, not_forall]
  simp only [Bool.not_eq_true]

theorem selReserved_ne_zero {w : Data} : selReserved w ≠ 0#29 ↔ ∃ k, 3 ≤ k ∧ w.getLsbD k = true := by
  rw [Ne, selReserved_eq_zero]
  push Not
  simp only [Bool.not_eq_false]

/-! ### UPDATE (R170) -/

/-- UPDATE reads no cell it writes. -/
theorem State.update_update (s : State) : s.update.update = s.update := rfl

/-- Settles O18: UPDATE completes exactly past its four checks, and what it derives depends on the snapshot and the parameters alone. -/
theorem updateResult : Obligations.UpdateResult := by
  unfold Obligations.UpdateResult
  intro s
  refine ⟨fun ready written mode clear => ?completes, fun notReady => ?notReady, fun ready missing => ?incomplete,
    fun ready written mode => ?badMode, fun ready written mode reserved => ?badSel⟩
  case completes =>
    have written := allWritten_eq_true.mpr written
    have clear := selReserved_eq_zero.mpr clear
    refine ⟨s.update, exec_update_eq_next.mpr ⟨ready, written, mode, clear, rfl⟩, rfl, rfl, rfl,
      exec_update_eq_next.mpr ⟨ready, written, mode, clear, s.update_update.symm⟩, ?fromSnapshot⟩
    case fromSnapshot =>
      intro u v snap params second
      obtain ⟨-, -, -, -, rfl⟩ := exec_update_eq_next.mp second
      rw [State.update_derived, State.update_derived, snap, params]
  case notReady => exact exec_update_eq_refused.mpr (.inl ⟨notReady, rfl⟩)
  case incomplete => exact exec_update_eq_refused.mpr (.inr ⟨ready, .inl ⟨allWritten_eq_false.mpr missing, rfl⟩⟩)
  case badMode =>
    exact exec_update_eq_refused.mpr (.inr ⟨ready, .inr ⟨allWritten_eq_true.mpr written, .inl ⟨mode, rfl⟩⟩⟩)
  case badSel =>
    exact exec_update_eq_refused.mpr
      (.inr ⟨ready, .inr ⟨allWritten_eq_true.mpr written, .inr ⟨mode, selReserved_ne_zero.mpr reserved, rfl⟩⟩⟩)

/-! ### The filter registers (R171) -/

theorem real_q16 (w : Data) : (q16 w).real = (w.toInt : ℝ) / 65536 := by
  simp [q16]

theorem real_clamp_unit (v : Val) : (v.clamp (.rat 0) (.rat 1)).real = min (max v.real 0) 1 := by
  simp

theorem real_clamp_bip (v : Val) : (v.clamp (.rat (-1)) (.rat 1)).real = min (max v.real (-1)) 1 := by
  simp

theorem real_clamp_cutoff (v : Val) : (v.clamp cutMin cutMax).real = min (max v.real 20) 18000 := by
  simp [cutMin, cutMax]

theorem real_clamp_resonance (v : Val) : (v.clamp (.rat 0) resMax).real = min (max v.real 0) (93 / 100) := by
  simp [resMax]

/-- The drive is computed from the clamped resonance. -/
theorem real_deriveFilter_drive (snap : Vector Data 15) :
    (deriveFilter snap).drive.real = min (1 + 4 * (deriveFilter snap).reso.real * (deriveFilter snap).reso.real) 3 := by
  simp [deriveFilter, driveMax, pow_two, mul_assoc]

/-- The square in the drive keeps it at 1 or above, whatever the resonance. -/
theorem deriveFilter_drive_mem (snap : Vector Data 15) : Within 1 3 (deriveFilter snap).drive := by
  have square := mul_self_nonneg (deriveFilter snap).reso.real
  rw [Within, real_deriveFilter_drive]
  exact ⟨le_min (by linarith) (by norm_num), min_le_right _ _⟩

/-- Settles O19: each filter register is a clamp of one snapshot word, but for the drive, which reads the clamped resonance. -/
theorem updateFilterRegisters : Obligations.UpdateFilterRegisters := by
  unfold Obligations.UpdateFilterRegisters
  refine ⟨real_q16, ?words, fun s t done => ?registers⟩
  case words =>
    simp only [real_q16, BitVec.reduceToInt]
    norm_num
  case registers =>
    obtain ⟨-, -, -, -, rfl⟩ := exec_update_eq_next.mp done
    obtain ⟨drive_ge, drive_le⟩ := deriveFilter_drive_mem s.snap
    exact ⟨real_clamp_cutoff _, real_clamp_resonance _, rfl, real_deriveFilter_drive s.snap, drive_ge, drive_le,
      real_clamp_bip _, real_clamp_bip _⟩

/-! ### The envelope registers (R172) -/

/-- The ADSR time map depends on its knob and on the quotient of its bounds through the real numbers they stand for. -/
theorem real_adsrTime_of_knob (p : Prim) {k k' lo hi c q : Val} (lo_pos : 0 < lo.real) (lo_lt : lo.real < hi.real)
    (c_pos : 0 < c.real) (k_nonneg : 0 ≤ k.real) (knob : k.real = k'.real) (quotient : q.real = hi.real / lo.real) :
    (adsrTime p k lo hi c).real = lo.real * (pow p q (pow p k' c)).real := by
  have base : 0 < q.real := by rw [quotient]; exact div_pos (lo_pos.trans lo_lt) lo_pos
  have curved : (pow p k c).real = (pow p k' c).real := powFn_congr p k_nonneg (fun _ => c_pos) knob rfl
  rw [adsrTime_eq_expmap, real_expmap_of_quotient p lo_pos lo_lt quotient,
    powFn_congr p base.le (fun zero => absurd zero base.ne') rfl curved]

/-- A time register: the map of R114 of a knob clamped to [0, 1], exact wherever the knob is held at an end. -/
theorem adsrTime_of_clamped_knob (p : Prim) (w : Val) {lo hi c : ℚ} (lo_pos : 0 < lo) (lo_lt : lo < hi) (c_pos : 0 < c) :
    (∀ k : Val, k.real = min (max w.real 0) 1 →
      (adsrTime p (w.clamp (.rat 0) (.rat 1)) (.rat lo) (.rat hi) (.rat c)).real =
        lo * (pow p (.rat (hi / lo)) (pow p k (.rat c))).real) ∧
    (w.real ≤ 0 → (adsrTime p (w.clamp (.rat 0) (.rat 1)) (.rat lo) (.rat hi) (.rat c)).real = lo) ∧
    (1 ≤ w.real → (adsrTime p (w.clamp (.rat 0) (.rat 1)) (.rat lo) (.rat hi) (.rat c)).real = hi) := by
  have lo_pos : 0 < (Val.rat lo).real := by rw [Val.real_rat]; exact_mod_cast lo_pos
  have lo_lt : (Val.rat lo).real < (Val.rat hi).real := by rw [Val.real_rat, Val.real_rat]; exact_mod_cast lo_lt
  have c_pos : 0 < (Val.rat c).real := by rw [Val.real_rat]; exact_mod_cast c_pos
  refine ⟨fun k knob => ?formula, fun below => ?least, fun above => ?greatest⟩
  case formula =>
    rw [← Val.real_rat lo]
    refine real_adsrTime_of_knob p lo_pos lo_lt c_pos (clamp_inUnit w).1 ?_ (by simp)
    rw [real_clamp_unit, knob]
  case least =>
    rw [adsrTime_zero p lo_pos lo_lt c_pos (by simp [below]), Val.real_rat]
  case greatest =>
    rw [adsrTime_one p _ lo_pos lo_lt (by simp [above]), Val.real_rat]

/-- Settles O20: the sustain level is a clamp, and each of the three times is the map of a clamped knob between its own bounds. -/
theorem updateEnvelopeRegisters : Obligations.UpdateEnvelopeRegisters := by
  unfold Obligations.UpdateEnvelopeRegisters
  intro s t done
  obtain ⟨-, -, -, -, rfl⟩ := exec_update_eq_next.mp done
  have attack := adsrTime_of_clamped_knob s.params.math (q16 s.snap[8]) (lo := 2 / 1000) (hi := 2) (c := 7 / 10)
    (by norm_num) (by norm_num) (by norm_num)
  have decay := adsrTime_of_clamped_knob s.params.math (q16 s.snap[9]) (lo := 3 / 1000) (hi := 3 / 2) (c := 1 / 2)
    (by norm_num) (by norm_num) (by norm_num)
  have release := adsrTime_of_clamped_knob s.params.math (q16 s.snap[11]) (lo := 10 / 1000) (hi := 3) (c := 1 / 2)
    (by norm_num) (by norm_num) (by norm_num)
  push_cast at attack decay release
  obtain ⟨attackLaw, attackLeast, attackMost⟩ := attack
  obtain ⟨decayLaw, decayLeast, decayMost⟩ := decay
  obtain ⟨releaseLaw, releaseLeast, releaseMost⟩ := release
  exact ⟨real_clamp_unit _, attackLaw, decayLaw, releaseLaw, attackLeast, attackMost, decayLeast, decayMost,
    releaseLeast, releaseMost⟩

/-! ### The cutoff (R178) -/

theorem exists_octaves_cutoffLaw (m : Prim) (r : FilterRegs) (env lfo : Val) :
    ∃ octaves : Val, octaves.real = env.real * r.cEnvd.real * 5 + lfo.real * r.cLfod.real * 5 ∧
      (cutoffLaw m r env lfo).real = min (max (r.baseCut.real * (exp2 m octaves).real) 20) 18000 := by
  refine ⟨((env.mul r.cEnvd).mul octRange).add ((lfo.mul r.cLfod).mul octRange), by simp [octRange], ?_⟩
  rw [cutoffLaw, real_clamp_cutoff, Val.real_mul]

theorem tick_filt_fc (s : State) : s.tick.filt.fc = tickCutoff s := (ladderProcess_frame _ _ _ _).1

theorem inBip_of_inUnit {x : Val} (h : InUnit x) : InBip x := ⟨by linarith [h.1], h.2⟩

/-- A modulation in [-1, 1] at a depth in [-1, 1] moves the cutoff by at most `OCT_RANGE` octaves. -/
theorem abs_octaves_le {x depth : Val} (hx : InBip x) (hdepth : InBip depth) : |x.real * depth.real * 5| ≤ 5 := by
  have product : |x.real| * |depth.real| ≤ 1 := mul_le_one₀ (abs_le.mpr hx) (abs_nonneg _) (abs_le.mpr hdepth)
  rw [abs_mul, abs_mul, abs_of_pos (by norm_num : (0 : ℝ) < 5)]
  linarith

/-- Settles O37: the sample leaves the filter's cutoff cell as step 4 set it. -/
theorem tickCutoffLaw : Obligations.CutoffLaw := by
  unfold Obligations.CutoffLaw
  intro s t done
  obtain ⟨-, -, rfl⟩ := exec_tick_eq_next.mp done
  obtain ⟨octaves, sum, cutoff⟩ := exists_octaves_cutoffLaw s.params.math s.derived.filter (tickEnv s).2 (tickLfo s).2
  rw [← tickCutoff, ← tick_filt_fc] at cutoff
  refine ⟨⟨octaves, sum, cutoff⟩, ?range, tick_filt_res s, fun env => abs_octaves_le (inBip_of_inUnit env), abs_octaves_le⟩
  case range =>
    rw [Within, cutoff]
    exact ⟨le_min (le_max_right _ _) (by norm_num), min_le_right _ _⟩

/-! ### The pipeline of a TICK (R175) -/

/-- Settles O33: the nine steps are those of the model, run on the limited draws of this tick. -/
theorem tickResult : Obligations.TickResult := by
  unfold Obligations.TickResult
  intro s
  refine ⟨fun ready updated => ?completes, fun notReady => exec_tick_eq_refused.mpr (.inl ⟨notReady, rfl⟩),
    fun ready notUpdated => exec_tick_eq_refused.mpr (.inr ⟨ready, notUpdated, rfl⟩)⟩
  case completes =>
    obtain ⟨sh, sm, cn⟩ := nextDraw_inBip s
    obtain ⟨octaves, sum, cutoff⟩ := exists_octaves_cutoffLaw s.params.math s.derived.filter (tickEnv s).2 (tickLfo s).2
    exact ⟨nextDraw s, octaves, tickCutoff s, (tickOsc s).2.mul s.derived.filter.drive, (tickFilter s).2.mul (tickAmp s).2,
      sh, sm, cn, sum, cutoff, Val.real_mul _ _, Val.real_mul _ _, exec_tick_eq_next.mpr ⟨ready, updated, rfl⟩⟩

/-! ### The output and the amplitude (R181 to R183) -/

/-- An odd function is 0 at 0. -/
theorem softClip_zero (p : Prim) {x : Val} (h : x.real = 0) : (softClip p x).real = 0 := by
  have odd := softClip_odd p (x := x) (y := x) (by rw [h, neg_zero])
  linarith

theorem tickOut_inBip (s : State) : InBip (tickOut s) := softClip_inBip _ _

theorem tickOut_of_amp_zero {s : State} (h : (tickAmp s).2.real = 0) : (tickOut s).real = 0 :=
  softClip_zero _ (by rw [Val.real_mul, h, mul_zero])

/-- Settles O35: the output is a soft clip, which is bounded and keeps 0; `emit` puts it on both channels. -/
theorem outputIsBoundedAndDual : Obligations.OutputIsBoundedAndDual := by
  unfold Obligations.OutputIsBoundedAndDual
  intro s t done
  obtain ⟨-, -, rfl⟩ := exec_tick_eq_next.mp done
  exact ⟨⟨_, Val.real_mul _ _, rfl⟩, tickOut_inBip s, tickOut_of_amp_zero, s.tick_outs⟩

theorem tickAmp_adsr {s : State} (h : s.derived.aMode = 0#32) : tickAmp s = (s.env2, (tickEnv s).2) := by
  rw [tickAmp, h]
  rfl

theorem tickAmp_drone {s : State} (h : s.derived.aMode = 1#32) : tickAmp s = (s.env2, .rat 1) := by
  rw [tickAmp, h]
  rfl

theorem tickAmp_releaseOnly {s : State} (h : s.derived.aMode = 2#32) :
    tickAmp s = env2Step s.sr s.derived.env.tRel s.gate s.env2 := by
  rw [tickAmp, h]
  rfl

/-- A mode number UPDATE stores but R181 does not know is silence. -/
theorem tickAmp_unknown {s : State} (h : 2 < s.derived.aMode.toNat) : tickAmp s = (s.env2, .rat 0) := by
  rw [tickAmp, amplitude, u32, if_neg (by omega), if_neg (by omega), if_neg (by omega)]

theorem tickAmp_keeps_env2 {s : State} (h : s.derived.aMode ≠ 2#32) : (tickAmp s).1 = s.env2 := by
  have notTwo : u32 s.derived.aMode ≠ 2 := fun two => h (BitVec.eq_of_toNat_eq two)
  rw [tickAmp, amplitude, if_neg notTwo]
  split_ifs <;> rfl

/-- Settles O36, mode by mode. -/
theorem amplitudeModes : Obligations.AmplitudeModes := by
  unfold Obligations.AmplitudeModes
  intro s t done
  obtain ⟨-, -, rfl⟩ := exec_tick_eq_next.mp done
  refine ⟨(tickFilter s).2.mul (tickAmp s).2, rfl, fun adsr => ?adsr, fun drone => ?drone, fun two => ?releaseOnly,
    fun unknown => ?silence, tickAmp_keeps_env2⟩
  case adsr => rw [Val.real_mul, tickAmp_adsr adsr]
  case drone => simp [tickAmp_drone drone]
  case releaseOnly =>
    rw [State.tick_env2, tickAmp_releaseOnly two]
    exact ⟨rfl, Val.real_mul _ _⟩
  case silence => exact tickOut_of_amp_zero (by simp [tickAmp_unknown unknown])

/-! ### BLOCK (R184) -/

/-- Ticks only ever append to the stream, one frame each. -/
theorem ticks_outs : ∀ (n : Nat) (s : State),
    ∃ frames, (State.ticks n s).outs = s.outs ++ frames ∧ frames.length = n
  | 0, s => ⟨[], (List.append_nil _).symm, rfl⟩
  | n + 1, s => by
    obtain ⟨frames, outs, count⟩ := ticks_outs n s.tick
    refine ⟨(tickOut s, tickOut s) :: frames, ?_, by rw [List.length_cons, count]⟩
    rw [ticks_succ, outs, State.tick_outs, List.append_assoc, List.singleton_append]

theorem exec_block_of_updated {n : Data} {s : State} (ready : s.vInit = true) (updated : s.vUpd = true) :
    exec (.block n) s = .next (State.ticks (u32 n) s) := exec_block_eq_next.mpr ⟨ready, updated, rfl⟩

theorem u32_ofNat {n : Nat} (h : n < 2 ^ 32) : u32 (BitVec.ofNat 32 n) = n := by
  rw [u32, BitVec.toNat_ofNat, Nat.mod_eq_of_lt h]

/-- Settles O49: BLOCK is the recursion of `ticks` on its operand, read as a number below 2^32. -/
theorem blockIsTicks : Obligations.BlockIsTicks := by
  unfold Obligations.BlockIsTicks
  intro s
  refine ⟨fun ready updated => ⟨exec_block_of_updated ready updated, fun n bound => ?unroll, fun n => ?frames⟩,
    fun n notReady => exec_block_eq_refused.mpr (.inl ⟨notReady, rfl⟩),
    fun n ready notUpdated => exec_block_eq_refused.mpr (.inr ⟨ready, notUpdated, rfl⟩)⟩
  case unroll =>
    refine ⟨s.tick, exec_tick_eq_next.mpr ⟨ready, updated, rfl⟩, ?_⟩
    rw [exec_block_of_updated ready updated, exec_block_of_updated (s := s.tick) ready updated, u32_ofNat bound,
      u32_ofNat (by omega), ticks_succ]
  case frames =>
    obtain ⟨frames, outs, count⟩ := ticks_outs (u32 n) s
    refine ⟨State.ticks (u32 n) s, exec_block_of_updated ready updated, ?_, ⟨frames, outs.symm⟩, ticks_frame _ s⟩
    rw [outs, List.length_append, count, u32]

end Sys2Proof.Machine
end

section
/-! PROOFS. The Oscillator Engine: the registers UPDATE derives for it, and the sample and the oscillator state of each timbre mode (43_oscillator.md R200 to R208). -/

namespace Sys2Proof.Machine

/-! ### The oscillator registers (R200, R201) -/

/-- The mode numbers UPDATE lets pass, and the modes they select. -/
theorem timbreOf_of_le_two {w : Data} (h : u32 w ≤ 2) :
    (w = 0#32 ∧ timbreOf w = .pulse) ∨ (w = 1#32 ∧ timbreOf w = .sawPair) ∨ (w = 2#32 ∧ timbreOf w = .triDig) := by
  have number : w.toNat = 0 ∨ w.toNat = 1 ∨ w.toNat = 2 := by
    rw [u32] at h
    omega
  obtain zero | one | two := number
  · obtain rfl : w = 0#32 := BitVec.eq_of_toNat_eq zero
    exact .inl ⟨rfl, rfl⟩
  · obtain rfl : w = 1#32 := BitVec.eq_of_toNat_eq one
    exact .inr (.inl ⟨rfl, rfl⟩)
  · obtain rfl : w = 2#32 := BitVec.eq_of_toNat_eq two
    exact .inr (.inr ⟨rfl, rfl⟩)

theorem real_deriveOsc_baseW (snap : Vector Data 15) :
    (deriveOsc snap).baseW.real = ((deriveOsc snap).char.real + 1) / 2 := by
  simp [deriveOsc]

theorem real_deriveOsc_syncAmt (snap : Vector Data 15) :
    (deriveOsc snap).syncAmt.real = max (deriveOsc snap).char.real 0 := by
  simp [deriveOsc]

theorem real_deriveOsc_foldBase (snap : Vector Data 15) :
    (deriveOsc snap).foldBase.real = max (-(deriveOsc snap).char.real) 0 := by
  simp [deriveOsc]

/-- Settles O21: three registers are clamps of one snapshot word each, three are computed from the clamped character, and the
check of UPDATE on `P[3]` leaves the three mode numbers. -/
theorem updateOscillatorRegisters : Obligations.UpdateOscillatorRegisters := by
  unfold Obligations.UpdateOscillatorRegisters
  intro s t done
  obtain ⟨-, -, mode, -, rfl⟩ := exec_update_eq_next.mp done
  exact ⟨real_clamp_bip _, real_clamp_bip _, real_clamp_bip _, timbreOf_of_le_two mode, real_deriveOsc_baseW s.snap,
    real_deriveOsc_syncAmt s.snap, real_deriveOsc_foldBase s.snap, rfl⟩

/-! ### The modulated amounts (R203, R204, R206, R207) -/

section
variable (r : OscRegs) (env lfo : Val)

theorem real_pulseWidth :
    (pulseWidth r env lfo).real = min (max (r.baseW.real + env.real * r.envd.real + lfo.real * r.lfod.real) 0) 1 := by
  simp [pulseWidth]

theorem real_sawPosition :
    (sawPosition r env lfo).real = r.char.real + env.real * r.envd.real + lfo.real * r.lfod.real := by
  simp [sawPosition]

/-- The clamp finds nothing left to do below 0. -/
theorem real_harmonics (x : Val) : (harmonics x).real = min (max x.real 0) 1 := by
  simp [harmonics]

/-- A magnitude needs no clamp below 0. -/
theorem real_timbreAmt (x : Val) : (timbreAmt x).real = min |x.real| 1 := by
  simp [timbreAmt]

/-- The envelope's octaves are scaled by 38/12 on top of the octave range. -/
theorem real_syncExponent :
    (syncExponent r env lfo).real =
      min (max (r.syncAmt.real * 5 + env.real * r.envd.real * 5 * 38 / 12 + lfo.real * r.lfod.real * 5) 0) 5 := by
  simp [syncExponent, octRange, syncEnvScale, mul_div_assoc]

theorem real_foldAmount :
    (foldAmount r env lfo).real = min (max (r.foldBase.real + env.real * r.envd.real + lfo.real * r.lfod.real) 0) 1 := by
  simp [foldAmount]

end

/-! ### The timbre modes (R202 to R208) -/

section
variable (p : Params) (sr : Val) {r : OscRegs} (f env lfo : Val) (b : OscBank)

theorem oscProcess_pulse (mode : r.mode = .pulse) :
    oscProcess p sr r f env lfo b = ({ b with p := (pulse sr r f env lfo b.p).1 }, (pulse sr r f env lfo b.p).2) := by
  rw [oscProcess, mode]

theorem oscProcess_sawPair (mode : r.mode = .sawPair) :
    oscProcess p sr r f env lfo b = ({ b with s := (sawPair p sr r f env lfo b.s).1 }, (sawPair p sr r f env lfo b.s).2) := by
  rw [oscProcess, mode]

theorem oscProcess_triDig (mode : r.mode = .triDig) :
    oscProcess p sr r f env lfo b =
      ({ b with t := (triDig p.math sr r f env lfo b.t).1 }, (triDig p.math sr r f env lfo b.t).2) := by
  rw [oscProcess, mode]

end

section
variable (m : Prim) (sr : Val) {r : OscRegs} (f env lfo : Val) (st : Gen OscPhases)

theorem triDig_plain (neutral : r.char.real = 0) :
    triDig m sr r f env lfo st = oscStep sr st ⟨f, .triangle, .rat (1 / 2), true, f⟩ := by
  rw [triDig, if_pos (by simp [neutral])]

theorem triDig_sync (positive : 0 < r.char.real) :
    triDig m sr r f env lfo st = oscStep sr st ⟨f, .triangle, .rat (1 / 2), true, f.mul (syncRatio m r env lfo)⟩ := by
  rw [triDig, if_neg (by simp [positive.ne']), if_pos (by simp [positive])]

theorem triDig_fold (negative : r.char.real < 0) :
    triDig m sr r f env lfo st =
      (let o := oscStep sr st ⟨f, .triangle, .rat (1 / 2), true, f⟩
       (o.1, fold o.2 (foldAmount r env lfo))) := by
  rw [triDig, if_neg (by simp [negative.ne]), if_neg (by simp [negative.le])]

end

/-- Settles O40: the mode picks the oscillator, and in mode 2 the sign of the character picks what is done with it. -/
theorem oscillatorModes : Obligations.OscillatorModes := by
  unfold Obligations.OscillatorModes
  intro p sr f env lfo r b
  refine ⟨fun mode => ?pulse, fun mode => ?sawPair, fun mode neutral => ?plain, fun mode positive => ?sync,
    fun mode negative => ?fold⟩
  case pulse => exact ⟨pulseWidth r env lfo, real_pulseWidth r env lfo, oscProcess_pulse p sr f env lfo b mode⟩
  case sawPair =>
    have position := real_sawPosition r env lfo
    exact ⟨harmonics (sawPosition r env lfo), timbreAmt (sawPosition r env lfo), by rw [real_harmonics, position],
      by rw [real_timbreAmt, position], oscProcess_sawPair p sr f env lfo b mode⟩
  case plain => rw [oscProcess_triDig p sr f env lfo b mode, triDig_plain p.math sr f env lfo b.t neutral]
  case sync =>
    refine ⟨syncExponent r env lfo, f.mul (syncRatio p.math r env lfo), real_syncExponent r env lfo, Val.real_mul _ _, ?_⟩
    rw [oscProcess_triDig p sr f env lfo b mode, triDig_sync p.math sr f env lfo b.t positive]
  case fold =>
    refine ⟨foldAmount r env lfo, real_foldAmount r env lfo, ?_⟩
    rw [oscProcess_triDig p sr f env lfo b mode, triDig_fold p.math sr f env lfo b.t negative]

end Sys2Proof.Machine
end

section
/-! PROOFS. The Modulation Source: the mode and the rates UPDATE derives for it, and one step of its six generators (44_lfo.md R230 to R238). -/

namespace Sys2Proof.Machine

open Sys2Proof.Safety

/-! ### The mode (R230) -/

theorem State.update_lfo_mode (s : State) :
    s.update.derived.lfo.mode = lfoModeOf s.params.lfoAB ((s.snap[14]).getLsbD 0) ((s.snap[14]).getLsbD 1)
      ((s.snap[14]).getLsbD 2) := rfl

/-- Settles O22: the check of UPDATE on the selector leaves three bits, and each row of the table of R230 is a value of
`lfoModeOf`; where A and B are not both set the reading `LFO_AB` is not looked at. -/
theorem updateLfoMode : Obligations.UpdateLfoMode := by
  unfold Obligations.UpdateLfoMode
  intro s t done
  obtain ⟨-, -, -, clear, rfl⟩ := exec_update_eq_next.mp done
  refine ⟨selReserved_eq_zero.mp clear, ?mode⟩
  case mode =>
    rw [State.update_lfo_mode]
    generalize (s.snap[14]).getLsbD 0 = signal, (s.snap[14]).getLsbD 1 = a, (s.snap[14]).getLsbD 2 = b,
      s.params.lfoAB = reading
    split <;> rfl

/-! ### The rates (R231) -/

/-- A rate register: the map of R113 between written bounds of a knob known by its real number, exact at both ends. -/
theorem expmap_of_knob (p : Prim) (x : Val) {lo hi : ℚ} (lo_pos : 0 < lo) (lo_lt : lo < hi) :
    (∀ k : Val, k.real = x.real →
      (expmap p x (.rat lo) (.rat hi)).real = lo * (pow p (.rat (hi / lo)) k).real) ∧
    (x.real = 0 → (expmap p x (.rat lo) (.rat hi)).real = lo) ∧
    (x.real = 1 → (expmap p x (.rat lo) (.rat hi)).real = hi) := by
  have base : 0 < (Val.rat (hi / lo)).real := by
    rw [Val.real_rat]
    exact_mod_cast div_pos (lo_pos.trans lo_lt) lo_pos
  have lo_pos : 0 < (Val.rat lo).real := by rw [Val.real_rat]; exact_mod_cast lo_pos
  have lo_lt : (Val.rat lo).real < (Val.rat hi).real := by rw [Val.real_rat, Val.real_rat]; exact_mod_cast lo_lt
  refine ⟨fun k knob => ?formula, fun zero => ?least, fun one => ?greatest⟩
  case formula =>
    rw [real_expmap_of_quotient p (q := .rat (hi / lo)) lo_pos lo_lt (by simp), Val.real_rat,
      powFn_congr p base.le (fun zero => absurd zero base.ne') rfl knob.symm]
  case least => rw [expmap_zero p lo_pos lo_lt zero, Val.real_rat]
  case greatest => rw [expmap_one p lo_pos lo_lt one, Val.real_rat]

/-- The cube of the knob, centred. -/
theorem real_deriveLfo_cnRate (p : Params) (snap : Vector Data 15) {k : Val}
    (knob : k.real = ((snapReal snap .lfoRate).clamp (.rat 0) (.rat 1)).real) :
    (deriveLfo p snap).cnRate.real = (2 * k.real - 1) * (2 * k.real - 1) * (2 * k.real - 1) := by
  rw [knob]
  simp only [deriveLfo, Val.real_mul, Val.real_sub, Val.real_sq, Val.real_rat]
  push_cast
  ring

theorem real_deriveLfo_gLow (p : Params) (snap : Vector Data 15) :
    (deriveLfo p snap).gLow.real = max 0 (1 - (deriveLfo p snap).cnRate.real) := by
  simp [deriveLfo]

theorem real_deriveLfo_gHigh (p : Params) (snap : Vector Data 15) :
    (deriveLfo p snap).gHigh.real = max 0 (1 + 1 / 2 * (deriveLfo p snap).cnRate.real) := by
  simp [deriveLfo]

/-- The base `LFO_FMAX/LFO_FMIN` is 10000, whose powers at quarters are exact under the ideal functions (log 2). -/
theorem pow_rate_quarter {k : Val} (n : ℤ) (quarter : k.real = n / 4) :
    (pow .reference (.rat (100 / (1 / 100))) k).real = 10 ^ n :=
  powFn_quarter n (by norm_num) quarter

/-- Settles O23: three rates are exponential maps of the clamped knob or of its square, the other three registers are computed
from the centred knob; the quarters of the knob are whole powers of 10. -/
theorem updateLfoRates : Obligations.UpdateLfoRates := by
  unfold Obligations.UpdateLfoRates
  intro s t done k knob
  obtain ⟨-, -, -, -, rfl⟩ := exec_update_eq_next.mp done
  rw [← real_clamp_unit] at knob
  have square : ((q16 s.snap[13]).clamp (.rat 0) (.rat 1)).sq.real = k.real * k.real := by rw [Val.real_sq, knob, pow_two]
  have rate := expmap_of_knob s.params.math ((q16 s.snap[13]).clamp (.rat 0) (.rat 1)) (lo := 1 / 100) (hi := 100)
    (by norm_num) (by norm_num)
  have ratio := expmap_of_knob s.params.math ((q16 s.snap[13]).clamp (.rat 0) (.rat 1)) (lo := 1 / 2) (hi := 4)
    (by norm_num) (by norm_num)
  have random := expmap_of_knob s.params.math ((q16 s.snap[13]).clamp (.rat 0) (.rat 1)).sq (lo := 1) (hi := 50)
    (by norm_num) (by norm_num)
  rw [← knob] at rate ratio
  rw [square] at random
  push_cast at rate ratio random
  obtain ⟨rateLaw, rateLeast, rateMost⟩ := rate
  obtain ⟨ratioLaw, ratioLeast, ratioMost⟩ := ratio
  obtain ⟨randomLaw, randomLeast, randomMost⟩ := random
  refine ⟨rateLaw k rfl, ratioLaw k rfl, randomLaw, real_deriveLfo_cnRate s.params s.snap knob,
    real_deriveLfo_gLow s.params s.snap, real_deriveLfo_gHigh s.params s.snap, fun zero => ?least, fun one => ?most,
    fun ideal => ?middle⟩
  case least => exact ⟨rateLeast zero, ratioLeast zero, randomLeast (by rw [zero, mul_zero])⟩
  case most => exact ⟨rateMost one, ratioMost one, randomMost (by rw [one, mul_one])⟩
  case middle =>
    have value (n : ℤ) (quarter : k.real = n / 4) : s.update.derived.lfo.rateHz.real = 1 / 100 * 10 ^ n :=
      (rateLaw k rfl).trans (by rw [ideal, pow_rate_quarter n quarter])
    exact ⟨fun knob => (value 1 (by norm_num [knob])).trans (by norm_num),
      fun knob => (value 2 (by norm_num [knob])).trans (by norm_num),
      fun knob => (value 3 (by norm_num [knob])).trans (by norm_num)⟩

/-! ### The parts of a generator's step (R233 to R238) -/

theorem real_advancePhase (sr rate ph : Val) :
    (advancePhase sr rate ph).real = Int.fract (ph.real + rate.real / sr.real) := by
  simp [advancePhase]

theorem real_pitchLockedHz (nf ratio : Val) : (pitchLockedHz nf ratio).real = min (nf.real * ratio.real) 20000 := by
  simp [pitchLockedHz, plFmax]

theorem sint_inBip (m : Prim) (t : Val) : InBip (sint m t) := abs_le.mp (abs_sint_le m t)

theorem smoothCells_of_lt {sr rate : Val} (ν : Val) {c : SmoothCells} (h : c.ph.real + rate.real / sr.real < 1) :
    smoothCells sr rate ν c = ⟨c.ph.add (rate.div sr), c.prev, c.next⟩ := by
  simp [smoothCells, h.not_ge]

theorem smoothCells_of_wrap {sr rate : Val} (ν : Val) {c : SmoothCells} (h : 1 ≤ c.ph.real + rate.real / sr.real) :
    smoothCells sr rate ν c = ⟨(c.ph.add (rate.div sr)).frac, c.next, ν⟩ := by
  simp [smoothCells, h]

/-- The output interpolates between the two values the generator holds after its step. -/
theorem real_smStep_ref (sr rate ν : Val) (c : SmoothCells) :
    (smStep sr rate ν (.ref c)).2.real = (smoothCells sr rate ν c).prev.real +
      ((smoothCells sr rate ν c).next.real - (smoothCells sr rate ν c).prev.real) * (smoothCells sr rate ν c).ph.real := by
  simp [smStep]

theorem real_cnStep (p m : Prim) (sr gLow gHigh ν : Val) (c : ColoredCells) :
    (cnStep p m sr gLow gHigh ν c).2.real = 1 / 2 * (gLow.real * (cnStep p m sr gLow gHigh ν c).1.y2.real +
      gHigh.real * (ν.real - (cnStep p m sr gLow gHigh ν c).1.y1.real)) := by
  simp [cnStep]

theorem exp_congr (p : Prim) {x y : Val} (h : x.real = y.real) : (exp p x).real = (exp p y).real :=
  (mathFns p).exp_congr x y h

/-- The reference one-pole depends on its exponent through the real number it stands for. -/
theorem real_onePole_reference (m : Prim) {sr y u e : Val} (exponent : e.real = -2 * (pi m).real * 200 / sr.real) :
    (onePole .reference m sr y u).real = y.real + (1 - (exp m e).real) * (u.real - y.real) := by
  have same : (exp m ((((Val.rat (-2)).mul (pi m)).mul cnFc).div sr)).real = (exp m e).real :=
    exp_congr m (by simp [exponent, cnFc])
  simp [onePole, real_poleCoeff, same]

/-! ### Every generator advances, and the mode selects (R232) -/

section
variable (p : Params) (sr nf : Val) (r : LfoRegs) (ν : Draw) (b : LfoBank)

theorem lfoStep_sine :
    (lfoStep p sr r nf ν b).1.gSin = (sinStep p.math sr r.rateHz b.gSin).1 ∧
      (r.mode = .sine → (lfoStep p sr r nf ν b).2 = (sinStep p.math sr r.rateHz b.gSin).2) :=
  ⟨rfl, fun mode => by rw [lfoStep, mode]⟩

theorem lfoStep_triangle :
    (lfoStep p sr r nf ν b).1.gTri = (triStep sr r.rateHz b.gTri).1 ∧
      (r.mode = .triangle → (lfoStep p sr r nf ν b).2 = (triStep sr r.rateHz b.gTri).2) :=
  ⟨rfl, fun mode => by rw [lfoStep, mode]⟩

theorem lfoStep_pitchLocked :
    (lfoStep p sr r nf ν b).1.gPl = (plStep p.math sr r.plRatio nf b.gPl).1 ∧
      (r.mode = .pitchLocked → (lfoStep p sr r nf ν b).2 = (plStep p.math sr r.plRatio nf b.gPl).2) :=
  ⟨rfl, fun mode => by rw [lfoStep, mode]⟩

theorem lfoStep_stepped :
    (lfoStep p sr r nf ν b).1.gSh = (shStep sr r.randHz ν.sh b.gSh).1 ∧
      (r.mode = .stepped → (lfoStep p sr r nf ν b).2 = (shStep sr r.randHz ν.sh b.gSh).2) :=
  ⟨rfl, fun mode => by rw [lfoStep, mode]⟩

theorem lfoStep_smoothed :
    (lfoStep p sr r nf ν b).1.gSm = (smStep sr r.randHz ν.sm b.gSm).1 ∧
      (r.mode = .smoothed → (lfoStep p sr r nf ν b).2 = (smStep sr r.randHz ν.sm b.gSm).2) :=
  ⟨rfl, fun mode => by rw [lfoStep, mode]⟩

theorem lfoStep_colored :
    (lfoStep p sr r nf ν b).1.gCn = (cnStep p.onePole p.math sr r.gLow r.gHigh ν.cn b.gCn).1 ∧
      (r.mode = .colored →
        (lfoStep p sr r nf ν b).2 = (cnStep p.onePole p.math sr r.gLow r.gHigh ν.cn b.gCn).2) :=
  ⟨rfl, fun mode => by rw [lfoStep, mode]⟩

end

/-- Settles O43, generator by generator: what its cell becomes and what the mode then puts out are read off its own step, run
on its reference cells or on the hidden state of an arbitrary generator in its place. -/
theorem lfoGeneratorsAdvance : Obligations.LfoGeneratorsAdvance := by
  unfold Obligations.LfoGeneratorsAdvance
  intro p sr nf r ν b t o done
  obtain rfl : (lfoStep p sr r nf ν b).1 = t := by rw [done]
  obtain rfl : (lfoStep p sr r nf ν b).2 = o := by rw [done]
  have sine := lfoStep_sine p sr nf r ν b
  have triangle := lfoStep_triangle p sr nf r ν b
  have pitchLocked := lfoStep_pitchLocked p sr nf r ν b
  have stepped := lfoStep_stepped p sr nf r ν b
  have smoothed := lfoStep_smoothed p sr nf r ν b
  obtain ⟨-, coloredOut⟩ := lfoStep_colored p sr nf r ν b
  refine ⟨fun phase cell => ?sineRef, fun hidden cell => ?sineOwn, fun phase cell => ?triangleRef,
    fun hidden cell => ?triangleOwn, fun phase cell => ?pitchLockedRef, fun hidden cell => ?pitchLockedOwn,
    fun clock held cell => ?steppedRef, fun hidden cell => ?steppedOwn, fun clock prev next cell => ?smoothedRef,
    fun hidden cell => ?smoothedOwn, rfl, rfl, fun mode => ?colored, fun reference y u e exponent => ?onePole⟩
  case sineRef =>
    rw [cell] at sine
    obtain ⟨state, output⟩ := sine
    refine ⟨⟨_, state, real_advancePhase _ _ _⟩, fun mode => ?_⟩
    rw [output mode]
    exact ⟨rfl, sint_inBip _ _⟩
  case sineOwn =>
    rw [cell] at sine
    exact sine
  case triangleRef =>
    rw [cell] at triangle
    obtain ⟨state, output⟩ := triangle
    refine ⟨⟨_, state, real_advancePhase _ _ _⟩, fun mode => ?_⟩
    rw [output mode]
    exact ⟨tri4_inBip _, (Val.rat 4).mul phase, by simp, rfl⟩
  case triangleOwn =>
    rw [cell] at triangle
    exact triangle
  case pitchLockedRef =>
    rw [cell] at pitchLocked
    obtain ⟨state, output⟩ := pitchLocked
    refine ⟨⟨_, state, by rw [real_advancePhase, real_pitchLockedHz]⟩, fun mode => ?_⟩
    rw [output mode]
    exact ⟨rfl, sint_inBip _ _⟩
  case pitchLockedOwn =>
    rw [cell] at pitchLocked
    exact ⟨pitchLockedHz nf r.plRatio, real_pitchLockedHz _ _, pitchLocked⟩
  case steppedRef =>
    rw [cell] at stepped
    obtain ⟨state, output⟩ := stepped
    refine ⟨fun running => ?_, fun wrapped => ?_⟩
    · rw [shStep, holdStep_of_lt ν.sh running] at state output
      exact ⟨output, _, state, by simp⟩
    · rw [shStep, holdStep_of_wrap ν.sh wrapped] at state output
      exact ⟨output, _, state, by simp⟩
  case steppedOwn =>
    rw [cell] at stepped
    exact stepped
  case smoothedRef =>
    rw [cell] at smoothed
    obtain ⟨state, output⟩ := smoothed
    refine ⟨fun running => ⟨fun mode => ?_, ?_⟩, fun wrapped => ⟨fun mode => ?_, ?_⟩⟩
    · rw [output mode, real_smStep_ref, smoothCells_of_lt ν.sm running]
      simp
    · rw [smStep, smoothCells_of_lt ν.sm running] at state
      exact ⟨_, state, by simp⟩
    · rw [output mode, real_smStep_ref, smoothCells_of_wrap ν.sm wrapped]
      simp
    · rw [smStep, smoothCells_of_wrap ν.sm wrapped] at state
      exact ⟨_, state, by simp⟩
  case smoothedOwn =>
    rw [cell] at smoothed
    exact smoothed
  case colored =>
    rw [coloredOut mode]
    exact real_cnStep _ _ _ _ _ _ _
  case onePole =>
    rw [reference]
    exact real_onePole_reference p.math exponent

end Sys2Proof.Machine
end

section
/-! PROOFS. The envelope generators: one step of the reference ENV1 and ENV2, the range of the level, and the segments of ENV1 as ramps that take a known number of ticks (45_envelopes.md R260 to R265). -/

namespace Sys2Proof.Machine

open Sys2Proof.Safety

/-! ### The level and the stage a moving segment leaves (R261) -/

section
variable (sr : Val) (e : EnvRegs) (l : Val)

/-- The level after a tick of the attack. -/
def attackLevel : Val := (Val.rat 1).min (l.add ((Val.rat 1).div (e.tAtt.mul sr)))

/-- The level a tick of the decay moves to, before it is floored at `SUS`. -/
def decayLevel : Val := l.sub (((Val.rat 1).sub e.sus).div (e.tDec.mul sr))

/-- The level after a tick of the release, in either envelope. -/
def releaseLevel (tRel : Val) : Val := (Val.rat 0).max (l.sub ((Val.rat 1).div (tRel.mul sr)))

/-- The stage an attack leaves: at full level the decay follows. -/
def attackStage : Stage := if l.same (.rat 1) then .decay else .attack

/-- The stage a release leaves: at level 0 the envelope is at rest. -/
def releaseStage : Stage := if l.same (.rat 0) then .idle else .release

@[simp] theorem real_attackLevel : (attackLevel sr e l).real = min 1 (l.real + 1 / (e.tAtt.real * sr.real)) := by
  simp [attackLevel]

@[simp] theorem real_decayLevel :
    (decayLevel sr e l).real = l.real - (1 - e.sus.real) / (e.tDec.real * sr.real) := by
  simp [decayLevel]

@[simp] theorem real_releaseLevel (tRel : Val) :
    (releaseLevel sr l tRel).real = max 0 (l.real - 1 / (tRel.real * sr.real)) := by
  simp [releaseLevel]

variable {l}

theorem attackStage_of_eq_one (h : l.real = 1) : attackStage l = .decay := if_pos (by simpa using h)

theorem attackStage_of_ne_one (h : l.real ≠ 1) : attackStage l = .attack := if_neg (by simpa using h)

theorem releaseStage_of_eq_zero (h : l.real = 0) : releaseStage l = .idle := if_pos (by simpa using h)

theorem releaseStage_of_ne_zero (h : l.real ≠ 0) : releaseStage l = .release := if_neg (by simpa using h)

/-! ### One step of ENV1 (R261) -/

variable (l)

theorem env1Step_rise {st : Stage} (rising : st = .idle ∨ st = .release ∨ st = .attack) :
    env1Step sr e true (.ref st l) = (.ref (attackStage (attackLevel sr e l)) (attackLevel sr e l), attackLevel sr e l) := by
  rcases rising with rfl | rfl | rfl <;> rfl

theorem env1Step_decay_ends (floored : (decayLevel sr e l).real ≤ e.sus.real) :
    env1Step sr e true (.ref .decay l) = (.ref .sustain e.sus, e.sus) := by
  have segment : envSegment sr e .decay l = (.sustain, e.sus) := if_pos ((Val.le_iff _ _).mpr floored)
  simp [env1Step, gateStage, segment]

theorem env1Step_decay_moves (above : e.sus.real < (decayLevel sr e l).real) :
    env1Step sr e true (.ref .decay l) = (.ref .decay (decayLevel sr e l), decayLevel sr e l) := by
  have segment : envSegment sr e .decay l = (.decay, decayLevel sr e l) :=
    if_neg (fun le => above.not_ge ((Val.le_iff _ _).mp le))
  simp [env1Step, gateStage, segment]

theorem env1Step_sustain : env1Step sr e true (.ref .sustain l) = (.ref .sustain e.sus, e.sus) := rfl

theorem env1Step_release {st : Stage} (notIdle : st ≠ .idle) :
    env1Step sr e false (.ref st l) =
      (.ref (releaseStage (releaseLevel sr l e.tRel)) (releaseLevel sr l e.tRel), releaseLevel sr l e.tRel) := by
  cases st with
  | idle => exact absurd rfl notIdle
  | attack => rfl
  | decay => rfl
  | sustain => rfl
  | release => rfl

/-- Short of full level the attack goes on, by an equal step. -/
theorem env1Step_attack_moves (below : l.real + 1 / (e.tAtt.real * sr.real) < 1) :
    ∃ v, (env1Step sr e true (.ref .attack l)).1 = .ref .attack v ∧ v.real = l.real + 1 / (e.tAtt.real * sr.real) := by
  have next : (attackLevel sr e l).real = l.real + 1 / (e.tAtt.real * sr.real) := by
    rw [real_attackLevel, min_eq_right below.le]
  exact ⟨_, by rw [env1Step_rise sr e l (.inr (.inr rfl)), attackStage_of_ne_one (next.trans_lt below).ne], next⟩

/-- Above level 0 the release goes on, by an equal step. -/
theorem env1Step_release_moves (above : 0 < l.real - 1 / (e.tRel.real * sr.real)) :
    ∃ v, (env1Step sr e false (.ref .release l)).1 = .ref .release v ∧
      v.real = l.real - 1 / (e.tRel.real * sr.real) := by
  have next : (releaseLevel sr l e.tRel).real = l.real - 1 / (e.tRel.real * sr.real) := by
    rw [real_releaseLevel, max_eq_right above.le]
  exact ⟨_, by rw [env1Step_release sr e l (by decide), releaseStage_of_ne_zero (above.trans_eq next.symm).ne'], next⟩

theorem env1Step_rest : env1Step sr e false (.ref .idle l) = (.ref .idle (.rat 0), .rat 0) := rfl

/-! ### The level stays in [0, 1] -/

variable {sr e l}

theorem attackLevel_inUnit (sr_pos : 0 < sr.real) (tAtt_pos : 0 < e.tAtt.real) (hl : InUnit l) :
    InUnit (attackLevel sr e l) := by
  have rise : 0 < 1 / (e.tAtt.real * sr.real) := by positivity
  rw [InUnit, real_attackLevel]
  exact ⟨le_min zero_le_one (add_nonneg hl.1 rise.le), min_le_left _ _⟩

theorem releaseLevel_inUnit {tRel : Val} (sr_pos : 0 < sr.real) (tRel_pos : 0 < tRel.real) (hl : InUnit l) :
    InUnit (releaseLevel sr l tRel) := by
  have fall : 0 < 1 / (tRel.real * sr.real) := by positivity
  rw [InUnit, real_releaseLevel]
  exact ⟨le_max_left _ _, max_le zero_le_one (by linarith [hl.2])⟩

theorem decayLevel_le (sr_pos : 0 < sr.real) (tDec_pos : 0 < e.tDec.real) (sus : InUnit e.sus) :
    (decayLevel sr e l).real ≤ l.real := by
  have fall : 0 ≤ (1 - e.sus.real) / (e.tDec.real * sr.real) :=
    div_nonneg (sub_nonneg.mpr sus.2) (mul_pos tDec_pos sr_pos).le
  rw [real_decayLevel]
  linarith

theorem env1Step_ref_inUnit (g : Bool) (st : Stage) (sr_pos : 0 < sr.real) (tAtt_pos : 0 < e.tAtt.real)
    (tDec_pos : 0 < e.tDec.real) (tRel_pos : 0 < e.tRel.real) (sus : InUnit e.sus) (hl : InUnit l) :
    InUnit (env1Step sr e g (.ref st l)).2 := by
  have rises := attackLevel_inUnit sr_pos tAtt_pos hl
  cases g with
  | false =>
    by_cases idle : st = .idle
    · rw [idle, env1Step_rest]; simp [InUnit]
    · rw [env1Step_release sr e l idle]; exact releaseLevel_inUnit sr_pos tRel_pos hl
  | true =>
    cases st with
    | idle => rw [env1Step_rise sr e l (.inl rfl)]; exact rises
    | release => rw [env1Step_rise sr e l (.inr (.inl rfl))]; exact rises
    | attack => rw [env1Step_rise sr e l (.inr (.inr rfl))]; exact rises
    | sustain => rw [env1Step_sustain]; exact sus
    | decay =>
      rcases le_or_gt (decayLevel sr e l).real e.sus.real with floored | above
      · rw [env1Step_decay_ends sr e l floored]; exact sus
      · rw [env1Step_decay_moves sr e l above]
        exact ⟨sus.1.trans above.le, (decayLevel_le sr_pos tDec_pos sus).trans hl.2⟩

/-! ### Segments as ramps

A segment keeps its stage for as long as the next level is short of its end, and moves by the same amount each tick. -/

/-- `n` ticks of a stage that moves its level by `d` at each of the levels it passes. -/
theorem envAfter_ramp {g : Bool} {st : Stage} {d : ℝ} : ∀ n : ℕ,
    (∀ k < n, ∀ v : Val, v.real = l.real + k * d →
      ∃ v', (env1Step sr e g (.ref st v)).1 = .ref st v' ∧ v'.real = v.real + d) →
    ∃ v, envAfter sr e g n (.ref st l) = .ref st v ∧ v.real = l.real + n * d
  | 0, _ => ⟨l, rfl, by simp⟩
  | n + 1, moves => by
    obtain ⟨v, reached, level⟩ := envAfter_ramp n fun k hk => moves k (by omega)
    obtain ⟨v', stepped, next⟩ := moves n n.lt_succ_self v level
    exact ⟨v', by rw [envAfter_succ, reached, stepped], by rw [next, level]; push_cast; ring⟩

theorem exists_ceil_eq_succ {x : ℝ} (pos : 0 < x) : ∃ n : ℕ, ⌈x⌉₊ = n + 1 ∧ n < ⌈x⌉₊ ∧ x ≤ n + 1 := by
  obtain ⟨n, last⟩ := Nat.exists_eq_succ_of_ne_zero (Nat.ceil_pos.mpr pos).ne'
  exact ⟨n, last, by omega, by exact_mod_cast Nat.ceil_le.mp last.le⟩

/-! ### The attack -/

/-- The first tick of an open gate takes an envelope at rest into the attack before it moves the level. -/
theorem envAfter_idle_eq_attack {k : ℕ} (pos : 0 < k) :
    envAfter sr e true k (.ref .idle l) = envAfter sr e true k (.ref .attack l) := by
  obtain ⟨n, rfl⟩ := Nat.exists_eq_succ_of_ne_zero pos.ne'
  rfl

theorem envAfter_attack (duration : 0 < e.tAtt.real * sr.real) (zero : l.real = 0) {k : ℕ}
    (before : k < ⌈e.tAtt.real * sr.real⌉₊) :
    ∃ v, envAfter sr e true k (.ref .attack l) = .ref .attack v ∧ v.real = k / (e.tAtt.real * sr.real) := by
  have moves (j : ℕ) (hj : j < k) (v : Val) (level : v.real = l.real + j * (1 / (e.tAtt.real * sr.real))) :=
    env1Step_attack_moves sr e v <| by
      have short : ((j + 1 : ℕ) : ℝ) < e.tAtt.real * sr.real := Nat.lt_ceil.mp (by omega)
      calc v.real + 1 / (e.tAtt.real * sr.real) = ((j + 1 : ℕ) : ℝ) / (e.tAtt.real * sr.real) := by
            rw [level, zero]; push_cast; ring
        _ < 1 := (div_lt_one duration).mpr short
  obtain ⟨v, reached, level⟩ := envAfter_ramp k moves
  exact ⟨v, reached, by rw [level, zero]; ring⟩

theorem envAfter_attack_ends (duration : 0 < e.tAtt.real * sr.real) (zero : l.real = 0) :
    ∃ v, envAfter sr e true ⌈e.tAtt.real * sr.real⌉₊ (.ref .attack l) = .ref .decay v ∧ v.real = 1 := by
  obtain ⟨n, last, before, enough⟩ := exists_ceil_eq_succ duration
  obtain ⟨v, reached, level⟩ := envAfter_attack duration zero before
  have full : (attackLevel sr e v).real = 1 := by
    rw [real_attackLevel, level, ← add_div]
    exact min_eq_left ((one_le_div duration).mpr enough)
  exact ⟨_, by rw [last, envAfter_succ, reached, env1Step_rise sr e v (.inr (.inr rfl)), attackStage_of_eq_one full], full⟩

/-! ### The decay -/

theorem envAfter_decay (duration : 0 < e.tDec.real * sr.real) (one : l.real = 1) (sus : e.sus.real < 1) {k : ℕ}
    (before : k < ⌈e.tDec.real * sr.real⌉₊) :
    ∃ v, envAfter sr e true k (.ref .decay l) = .ref .decay v ∧
      v.real = 1 - k * (1 - e.sus.real) / (e.tDec.real * sr.real) := by
  have moves (j : ℕ) (hj : j < k) (v : Val)
      (level : v.real = l.real + j * -((1 - e.sus.real) / (e.tDec.real * sr.real))) :
      ∃ v', (env1Step sr e true (.ref .decay v)).1 = .ref .decay v' ∧
        v'.real = v.real + -((1 - e.sus.real) / (e.tDec.real * sr.real)) := by
    have short : ((j + 1 : ℕ) : ℝ) < e.tDec.real * sr.real := Nat.lt_ceil.mp (by omega)
    have depth : ((j + 1 : ℕ) : ℝ) * (1 - e.sus.real) / (e.tDec.real * sr.real) < 1 - e.sus.real := by
      rw [div_lt_iff₀ duration, mul_comm (1 - e.sus.real)]
      exact mul_lt_mul_of_pos_right short (sub_pos.mpr sus)
    have above : e.sus.real < (decayLevel sr e v).real := by
      calc e.sus.real < 1 - ((j + 1 : ℕ) : ℝ) * (1 - e.sus.real) / (e.tDec.real * sr.real) := by linarith
        _ = (decayLevel sr e v).real := by rw [real_decayLevel, level, one]; push_cast; ring
    exact ⟨_, by rw [env1Step_decay_moves sr e v above], by rw [real_decayLevel, sub_eq_add_neg]⟩
  obtain ⟨v, reached, level⟩ := envAfter_ramp k moves
  exact ⟨v, reached, by rw [level, one]; ring⟩

theorem envAfter_decay_ends (duration : 0 < e.tDec.real * sr.real) (one : l.real = 1) (sus : e.sus.real < 1) :
    envAfter sr e true ⌈e.tDec.real * sr.real⌉₊ (.ref .decay l) = .ref .sustain e.sus := by
  obtain ⟨n, last, before, enough⟩ := exists_ceil_eq_succ duration
  obtain ⟨v, reached, level⟩ := envAfter_decay duration one sus before
  have depth : 1 - e.sus.real ≤ (n + 1) * (1 - e.sus.real) / (e.tDec.real * sr.real) := by
    rw [le_div_iff₀ duration, mul_comm (1 - e.sus.real)]
    exact mul_le_mul_of_nonneg_right enough (sub_pos.mpr sus).le
  have floored : (decayLevel sr e v).real ≤ e.sus.real := by
    calc (decayLevel sr e v).real = 1 - (n + 1) * (1 - e.sus.real) / (e.tDec.real * sr.real) := by
          rw [real_decayLevel, level]; ring
      _ ≤ e.sus.real := by linarith
  rw [last, envAfter_succ, reached, env1Step_decay_ends sr e v floored]

/-- With `SUS` = 1 the decay has nowhere to go: one tick, whatever `T_DEC` is. -/
theorem envAfter_decay_flat (one : l.real = 1) (sus : e.sus.real = 1) :
    envAfter sr e true 1 (.ref .decay l) = .ref .sustain e.sus := by
  have floored : (decayLevel sr e l).real ≤ e.sus.real := by simp [one, sus]
  rw [envAfter, envAfter, env1Step_decay_ends sr e l floored]

/-! ### The release -/

theorem lt_ceil_release {k : ℕ} (duration : 0 < e.tRel.real * sr.real) :
    k < ⌈l.real * e.tRel.real * sr.real⌉₊ ↔ 0 < l.real - k / (e.tRel.real * sr.real) := by
  rw [Nat.lt_ceil, sub_pos, div_lt_iff₀ duration, mul_assoc]

theorem envAfter_release (duration : 0 < e.tRel.real * sr.real) {k : ℕ}
    (before : k < ⌈l.real * e.tRel.real * sr.real⌉₊) :
    ∃ v, envAfter sr e false k (.ref .release l) = .ref .release v ∧ v.real = l.real - k / (e.tRel.real * sr.real) := by
  have moves (j : ℕ) (hj : j < k) (v : Val) (level : v.real = l.real + j * -(1 / (e.tRel.real * sr.real))) :=
    env1Step_release_moves sr e v <| by
      calc 0 < l.real - ((j + 1 : ℕ) : ℝ) / (e.tRel.real * sr.real) := (lt_ceil_release duration).mp (by omega)
        _ = v.real - 1 / (e.tRel.real * sr.real) := by rw [level]; push_cast; ring
  obtain ⟨v, reached, level⟩ := envAfter_ramp k moves
  exact ⟨v, reached, by rw [level]; ring⟩

theorem envAfter_release_ends (duration : 0 < e.tRel.real * sr.real) (pos : 0 < l.real) :
    ∃ v, envAfter sr e false ⌈l.real * e.tRel.real * sr.real⌉₊ (.ref .release l) = .ref .idle v ∧ v.real = 0 := by
  obtain ⟨n, last, before, -⟩ := exists_ceil_eq_succ
    (show 0 < l.real * e.tRel.real * sr.real by rw [mul_assoc]; exact mul_pos pos duration)
  obtain ⟨v, reached, level⟩ := envAfter_release duration before
  have past : l.real - ((n + 1 : ℕ) : ℝ) / (e.tRel.real * sr.real) ≤ 0 :=
    not_lt.mp fun short => absurd ((lt_ceil_release duration).mpr short) (by omega)
  have spent : (releaseLevel sr v e.tRel).real = 0 := by
    rw [real_releaseLevel, level]
    refine max_eq_left (le_of_eq_of_le ?_ past)
    push_cast
    ring
  exact ⟨_, by rw [last, envAfter_succ, reached, env1Step_release sr e v (by decide), releaseStage_of_eq_zero spent], spent⟩

end

/-- Settles O46: one step is read off the stages; a segment is a ramp of equal steps for as long as the next level is short of
its end, and its last tick is the first that is not. -/
theorem envelopeLaw : Obligations.EnvelopeLaw := by
  unfold Obligations.EnvelopeLaw
  refine ⟨fun sr l e => ⟨fun st rising => ?rise, fun floored => ?decayEnds, fun above => ?decayMoves,
      env1Step_sustain sr e l, fun st notIdle => ?release, env1Step_rest sr e l⟩,
    fun sr l e g st sr_pos tAtt_pos tDec_pos tRel_pos =>
      env1Step_ref_inUnit g st sr_pos tAtt_pos tDec_pos tRel_pos,
    fun sr l e sr_pos => ⟨fun tAtt_pos zero => ?attackLength, fun tDec_pos one sus => ?decayLength,
      envAfter_decay_flat, fun tRel_pos pos => ?releaseLength⟩⟩
  case rise =>
    exact ⟨_, _, env1Step_rise sr e l rising, real_attackLevel sr e l, attackStage_of_eq_one, attackStage_of_ne_one⟩
  case decayEnds => exact env1Step_decay_ends sr e l (by rwa [real_decayLevel])
  case decayMoves => exact ⟨_, env1Step_decay_moves sr e l (by rwa [real_decayLevel]), real_decayLevel sr e l⟩
  case release =>
    exact ⟨_, _, env1Step_release sr e l notIdle, real_releaseLevel sr l e.tRel, releaseStage_of_eq_zero,
      releaseStage_of_ne_zero⟩
  case attackLength =>
    have duration := mul_pos tAtt_pos sr_pos
    refine ⟨?_, fun k pos before => ?_⟩
    · rw [envAfter_idle_eq_attack (Nat.ceil_pos.mpr duration)]
      exact envAfter_attack_ends duration zero
    · rw [envAfter_idle_eq_attack pos]
      exact envAfter_attack duration zero before
  case decayLength =>
    have duration := mul_pos tDec_pos sr_pos
    exact ⟨envAfter_decay_ends duration one sus, fun k => envAfter_decay duration one sus⟩
  case releaseLength =>
    have duration := mul_pos tRel_pos sr_pos
    refine ⟨envAfter_release_ends duration pos, fun k before => ?_⟩
    obtain ⟨v, reached, level⟩ := envAfter_release duration before
    exact ⟨v, reached, level, ((lt_ceil_release duration).mp before).trans_eq level.symm⟩

/-! ### ENV2, and arbitrary laws (R265, R260) -/

theorem env2Step_open (sr tRel l : Val) (st : Stage) :
    env2Step sr tRel true (.ref st l) = (.ref .sustain (.rat 1), .rat 1) := rfl

theorem env2Step_closed (sr tRel l : Val) (st : Stage) :
    env2Step sr tRel false (.ref st l) =
      (.ref (releaseStage (releaseLevel sr l tRel)) (releaseLevel sr l tRel), releaseLevel sr l tRel) := rfl

theorem env1Step_own_inUnit (sr : Val) (e : EnvRegs) (g seen : Bool) (h : Hidden) :
    InUnit (env1Step sr e g (.own seen h)).2 := ownEnvOutput_inUnit _ _

theorem env2Step_own_inUnit (sr tRel : Val) (g seen : Bool) (h : Hidden) :
    InUnit (env2Step sr tRel g (.own seen h)).2 := ownEnvOutput_inUnit _ _

theorem env1Step_own_ungated (sr : Val) (e : EnvRegs) (h : Hidden) :
    (env1Step sr e false (.own false h)).2 = .rat 0 := rfl

theorem env2Step_own_ungated (sr tRel : Val) (h : Hidden) :
    (env2Step sr tRel false (.own false h)).2 = .rat 0 := rfl

/-- Settles O47: ENV2 shares its release segment with ENV1, and the contract of R260 is the range of `ownEnvOutput` and its
value before a gate is seen. -/
theorem releaseOnlyEnvelope : Obligations.ReleaseOnlyEnvelope := by
  unfold Obligations.ReleaseOnlyEnvelope
  refine ⟨env2Step_open, fun sr tRel l st => ?closed, fun sr e g seen h =>
    ⟨env1Step_own_inUnit sr e g seen h, env2Step_own_inUnit sr e.tRel g seen h, fun unseen shut => ?ungated⟩⟩
  case closed =>
    exact ⟨_, _, env2Step_closed sr tRel l st, real_releaseLevel sr l tRel, releaseStage_of_eq_zero,
      releaseStage_of_ne_zero⟩
  case ungated =>
    subst unseen shut
    rw [env1Step_own_ungated, env2Step_own_ungated]
    simp

end Sys2Proof.Machine
end

section
/-! PROOFS. The stack events of extension VM: a press, a release and the pop of the current note (46_voice_manager.md R281 to R284). -/

namespace Sys2Proof.Machine

open Sys2Proof.Safety

/-! ### What a press answers (R281) -/

@[simp] theorem VM.isHeld_sound (v : VM) (n m : Note) (w : Velocity) : (v.sound n w).isHeld m = v.isHeld m := rfl

theorem exec_evnoteon_of_ne_zero {n : Note} {v : Velocity} {s : State} (ch : Channel) (hasVM : s.params.hasVM = true)
    (ready : s.vInit = true) (v_ne : v ≠ 0#7) : exec (.evnoteon ch n v) s = notePress n v s := by
  simp [exec, execEvnoteon, hasVM, ready, v_ne]

theorem notePress_of_held {n : Note} {s : State} (v : Velocity) (held : s.vm.isHeld n = true) :
    notePress n v s = .next (State.voiceNoteOn { s with vm := s.vm.sound n v } n) :=
  notePress_eq_next.mpr (.inl ⟨held, rfl⟩)

theorem notePress_of_room {n : Note} {s : State} (v : Velocity) (notHeld : s.vm.isHeld n = false)
    (room : s.vm.seq.length < 128) :
    notePress n v s = .next (State.voiceNoteOn { s with vm := (s.vm.push n).sound n v } n) :=
  notePress_eq_next.mpr (.inr ⟨notHeld, room, rfl⟩)

theorem notePress_of_full {n : Note} {s : State} (v : Velocity) (notHeld : s.vm.isHeld n = false)
    (full : s.vm.seq.length = 128) : notePress n v s = .fault .stackOverflow := by
  have noRoom : vmCap ≤ s.sp := full.ge
  simp [notePress, notHeld, noRoom]

/-- Settles O50: a held note is sounded again, any other is pushed first if the sequence has room. -/
theorem notePressResult : Obligations.NotePressResult := by
  unfold Obligations.NotePressResult
  intro ch note vel s hasVM ready vel_ne
  rw [exec_evnoteon_of_ne_zero ch hasVM ready vel_ne]
  refine ⟨fun heldOrRoom => ?completes, notePress_of_full vel⟩
  cases held : s.vm.isHeld note with
  | true =>
    refine ⟨_, notePress_of_held vel held, rfl, rfl, rfl, rfl, rfl, fun n => ?set, fun _ => ⟨rfl, rfl⟩, nofun, rfl⟩
    case set =>
      by_cases same : n = note <;> simp [same, held]
  | false =>
    have room : s.vm.seq.length < 128 := heldOrRoom.resolve_left (by simp [held])
    exact ⟨_, notePress_of_room vel held room, rfl, rfl, rfl, rfl, rfl, fun n => s.vm.isHeld_push note n, nofun,
      fun _ => ⟨rfl, rfl⟩, rfl⟩

/-! ### What a release answers (R282, R283) -/

theorem exec_evnoteoff_of_ready {n : Note} {s : State} (ch : Channel) (v : Velocity) (hasVM : s.params.hasVM = true)
    (ready : s.vInit = true) : exec (.evnoteoff ch n v) s = noteRelease n s := by
  simp [exec, execEvnoteoff, hasVM, ready]

theorem exec_evnoteoff_of_not_init {n : Note} {s : State} (ch : Channel) (v : Velocity) (hasVM : s.params.hasVM = true)
    (notReady : s.vInit = false) : exec (.evnoteoff ch n v) s = .refused .notInitialised := by
  simp [exec, execEvnoteoff, hasVM, notReady]

theorem noteRelease_of_not_held {n : Note} {s : State} (notHeld : s.vm.isHeld n = false) : noteRelease n s = .next s :=
  noteRelease_eq_next.mpr (.inl ⟨notHeld, rfl⟩)

theorem noteRelease_of_current {n : Note} {s : State} (held : s.vm.isHeld n = true) (current : s.vm.cur = some n) :
    noteRelease n s = popNote n s := by
  simp [noteRelease, held, current]

theorem noteRelease_of_not_current {n : Note} {s : State} (held : s.vm.isHeld n = true)
    (notCurrent : s.vm.cur ≠ some n) : noteRelease n s = .next { s with vm := s.vm.release n } :=
  noteRelease_eq_next.mpr (.inr (.inr ⟨held, notCurrent, rfl⟩))

/-- Velocity 0 is a semantic note-off (R282): both commands go through the same checks to the same release. -/
theorem exec_evnoteon_zero (ch ch' : Channel) (n : Note) (v : Velocity) (s : State) :
    exec (.evnoteon ch n 0#7) s = exec (.evnoteoff ch' n v) s := rfl

/-- Settles O51: what EVNOTEOFF completes with keeps the last velocity, by the frame of a release. -/
theorem velocityZeroIsNoteOff : Obligations.VelocityZeroIsNoteOff := by
  unfold Obligations.VelocityZeroIsNoteOff
  intro ch ch' note vel s
  refine ⟨exec_evnoteon_zero ch ch' note vel s, fun t completes => ?_⟩
  rw [exec_evnoteon_zero ch ch' note vel s] at completes
  obtain ⟨-, -, released⟩ := exec_evnoteoff_eq_next.mp completes
  exact (noteRelease_frame released).2

/-- Settles O52: the note is not held, or it is current, or it is held below the current note. -/
theorem noteReleaseResult : Obligations.NoteReleaseResult := by
  unfold Obligations.NoteReleaseResult
  intro ch note vel s hasVM
  refine ⟨exec_evnoteoff_of_not_init ch vel hasVM, fun ready => ?notHeld, fun ready => ?current, fun ready => ?other⟩
  all_goals rw [exec_evnoteoff_of_ready ch vel hasVM ready]
  case notHeld => exact noteRelease_of_not_held
  case current => exact noteRelease_of_current
  case other =>
    intro held notCurrent
    exact ⟨_, noteRelease_of_not_current held notCurrent, fun n => s.vm.isHeld_release note n, rfl, rfl, rfl, rfl, rfl⟩

/-! ### What the scan of the pop finds (R284) -/

theorem VM.scan_append_rtakeWhile (v : VM) : v.scan ++ v.seq.rtakeWhile (fun n => !v.isHeld n) = v.seq :=
  List.rdropWhile_append_rtakeWhile

/-- The entries the scan trims are released ones. -/
theorem VM.not_isHeld_of_scan_length_le {v : VM} {j : Nat} {n : Note} (above : v.scan.length ≤ j)
    (entry : v.seq[j]? = some n) : v.isHeld n = false := by
  rw [← v.scan_append_rtakeWhile, List.getElem?_append_right above] at entry
  simpa using List.mem_rtakeWhile_imp (List.mem_of_getElem? entry)

/-- The entry the scan stops at is the topmost held one: the scan keeps the sequence up to it, and no entry above it is held. -/
theorem VM.exists_topmost_of_getLast?_scan {v : VM} {c : Note} (last : v.scan.getLast? = some c) :
    ∃ i, v.seq[i]? = some c ∧ v.scan = v.seq.take (i + 1) ∧
      ∀ (j : Nat) (n : Note), i < j → v.seq[j]? = some n → v.isHeld n = false := by
  have pos : 0 < v.scan.length := List.length_pos_of_mem (List.mem_of_getLast? last)
  have length : v.scan.length - 1 + 1 = v.scan.length := Nat.sub_add_cancel pos
  rw [List.getLast?_eq_getElem?] at last
  refine ⟨v.scan.length - 1, ?entry, ?kept, fun j n above => ?trimmed⟩
  case entry => rwa [← v.scan_append_rtakeWhile, List.getElem?_append_left (by omega)]
  case kept =>
    rw [length]
    exact List.prefix_iff_eq_take.mp v.scan_prefix
  case trimmed => exact VM.not_isHeld_of_scan_length_le (by omega)

/-- While the stack keeps its invariant and another note is held, the scan after a release finds an entry. -/
theorem VM.exists_getLast?_scan_release {v : VM} {n : Note} (inv : StackInv v) (held : v.isHeld n = true)
    (others : (v.release n).hcnt ≠ 0) : ∃ c, (v.release n).scan.getLast? = some c := by
  have count : (v.release n).held.count true = (v.release n).hcnt := by
    have before := VM.count_release held
    rw [VM.release_hcnt, inv.count]
    omega
  obtain ⟨m, heldAfter⟩ := VM.exists_isHeld_of_count_pos (count ▸ Nat.pos_of_ne_zero others)
  have heldBefore : v.isHeld m = true := by
    rw [VM.isHeld_release, Bool.and_eq_true] at heldAfter
    exact heldAfter.2
  have found : m ∈ (v.release n).scan := VM.mem_scan (inv.listed m heldBefore) heldAfter
  exact Option.isSome_iff_exists.mp (List.getLast?_isSome.mpr (List.ne_nil_of_mem found))

/-- Settles O53: the current note is held, so its release pops; either it was the last held note, or the scan ends at the
topmost entry still held. -/
theorem popFindsTopmostHeldNote : Obligations.PopFindsTopmostHeldNote := by
  unfold Obligations.PopFindsTopmostHeldNote
  intro ch note vel s hasVM ready inv current
  have held : s.vm.isHeld note = true := inv.curHeld note current
  have pos : 0 < s.vm.hcnt := inv.count ▸ VM.count_pos_of_isHeld held
  have hcnt : (s.vm.release note).hcnt = s.vm.hcnt - 1 := rfl
  rw [exec_evnoteoff_of_ready ch vel hasVM ready, noteRelease_of_current held current]
  by_cases last : s.vm.hcnt = 1
  · exact ⟨_, popNote_eq_next.mpr (.inl ⟨by omega, rfl⟩), fun n => s.vm.isHeld_release note n, rfl, rfl,
      fun _ => ⟨rfl, rfl, rfl⟩, (absurd last ·)⟩
  · have others : (s.vm.release note).hcnt ≠ 0 := by omega
    obtain ⟨c, top⟩ := VM.exists_getLast?_scan_release inv held others
    have topHeld : (s.vm.release note).isHeld c = true := VM.isHeld_of_getLast?_scan top
    obtain ⟨i, entry, kept, trimmed⟩ := VM.exists_topmost_of_getLast?_scan top
    exact ⟨_, popNote_eq_next.mpr (.inr ⟨others, c, top, rfl⟩), fun n => s.vm.isHeld_release note n, rfl, rfl,
      (absurd · last), fun _ => ⟨i, c, entry, topHeld, trimmed, kept, rfl, rfl⟩⟩

end Sys2Proof.Machine
end

section
/-! PROOFS. The refusals: the closed list of reasons in its order, over every command and every state, and the refusal mark, which no command takes away (60_exceptions.md R312). -/

namespace Sys2Proof.Machine

/-- The reasons a well-formed command can be refused for, in the order of 60 R312, each with what makes it the first to apply. -/
def RefusedFor (op : BitVec 8) (s : State) (r : Refusal) : Prop :=
  ((op = 0x10#8 ∨ op = 0x11#8) ∧ s.params.hasVM = false ∧ r = .noVM) ∨
  ((op = 0x10#8 ∨ op = 0x11#8 → s.params.hasVM = true) ∧ op ≠ 0x01#8 ∧ s.vInit = false ∧ r = .notInitialised) ∨
  (op = 0x03#8 ∧ s.vInit = true ∧ (∃ j : Fin 15, s.pw[j] = false) ∧ r = .snapshotIncomplete) ∨
  (op = 0x03#8 ∧ s.vInit = true ∧ (∀ j : Fin 15, s.pw[j] = true) ∧ 2 < (s.snap[3]).toNat ∧ r = .badOscMode) ∨
  (op = 0x03#8 ∧ s.vInit = true ∧ (∀ j : Fin 15, s.pw[j] = true) ∧ (s.snap[3]).toNat ≤ 2 ∧
    (∃ k, 3 ≤ k ∧ (s.snap[14]).getLsbD k = true) ∧ r = .badLfoSel) ∨
  ((op = 0x06#8 ∨ op = 0x07#8) ∧ s.vInit = true ∧ s.vUpd = false ∧ r = .notUpdated)

/-! ### When a stack event is refused -/

theorem popNote_ne_refused (n : Note) (s : State) (q : Refusal) : popNote n s ≠ .refused q := by
  simp only [popNote]
  split
  · simp
  · split <;> simp

theorem noteRelease_ne_refused (n : Note) (s : State) (q : Refusal) : noteRelease n s ≠ .refused q := by
  simp only [noteRelease]
  split_ifs
  · simp
  · exact popNote_ne_refused n s q
  · simp

theorem notePress_ne_refused (n : Note) (v : Velocity) (s : State) (q : Refusal) : notePress n v s ≠ .refused q := by
  simp only [notePress]
  split_ifs <;> simp

theorem exec_evnoteon_eq_refused {ch : Channel} {n : Note} {v : Velocity} {s : State} {q : Refusal} :
    exec (.evnoteon ch n v) s = .refused q ↔
      (s.params.hasVM = false ∧ q = .noVM) ∨ (s.params.hasVM = true ∧ s.vInit = false ∧ q = .notInitialised) := by
  have accepted : (if v = 0#7 then noteRelease n s else notePress n v s) ≠ .refused q := by
    split_ifs
    · exact noteRelease_ne_refused n s q
    · exact notePress_ne_refused n v s q
  simp [exec, execEvnoteon, require_eq_refused, accepted]

theorem exec_evnoteoff_eq_refused {ch : Channel} {n : Note} {v : Velocity} {s : State} {q : Refusal} :
    exec (.evnoteoff ch n v) s = .refused q ↔
      (s.params.hasVM = false ∧ q = .noVM) ∨ (s.params.hasVM = true ∧ s.vInit = false ∧ q = .notInitialised) := by
  simp [exec, execEvnoteoff, require_eq_refused, noteRelease_ne_refused]

/-! ### The closed list -/

theorem decode_wellFormed {w : Word} {i : Instr} (h : decode w = .ok i) : i.wellFormed = true := by
  obtain ⟨-, formats⟩ := decode_eq_ok h
  simp only [decodeInit_eq_ok, decodeSetp_eq_ok, decodeZ_eq_ok, decodeN_eq_ok, decodeBlock_eq_ok, decodeE_eq_ok] at formats
  obtain ⟨-, -, rate, rfl⟩ | ⟨-, index, rfl⟩ | ⟨-, -, -, rfl⟩ | ⟨-, -, -, rfl⟩ | ⟨-, -, -, rfl⟩ | ⟨-, -, -, rfl⟩ |
    ⟨-, -, rfl⟩ | ⟨-, -, -, rfl⟩ | ⟨-, -, -, rfl⟩ := formats
  case inl =>
    have nonzero : (Word.data w).toNat ≠ 0 := fun zero => rate (BitVec.eq_of_toNat_eq zero)
    exact decide_eq_true (Nat.one_le_iff_ne_zero.mpr nonzero)
  case inr.inl => exact decide_eq_true index
  all_goals rfl

/-- UPDATE's checks, said of the cells they read. -/
theorem exec_update_eq_refused_iff_refusedFor {s : State} {q : Refusal} :
    exec .update s = .refused q ↔ RefusedFor 0x03#8 s q := by
  have mode : snapWord s.snap .oscMode = s.snap[3] := rfl
  have sel : snapWord s.snap .lfoSel = s.snap[14] := rfl
  rw [exec_update_eq_refused, allWritten_eq_false, allWritten_eq_true, selReserved_ne_zero, mode, sel]
  simp [RefusedFor, u32, and_or_left]

/-- A well-formed command is refused for a reason of the list that applies to its opcode, and for no other. -/
theorem exec_eq_refused_iff_refusedFor {i : Instr} {s : State} {q : Refusal} (wf : i.wellFormed = true) :
    exec i s = .refused q ↔ RefusedFor i.opcode s q := by
  cases i with
  | init sr =>
    have rate : u32 sr ≠ 0 := Nat.one_le_iff_ne_zero.mp (of_decide_eq_true wf)
    simp [exec_init_eq_refused, rate, RefusedFor, Instr.opcode]
  | setp idx d =>
    have index : idx.toNat ≤ 14 := of_decide_eq_true wf
    simp [exec_setp_eq_refused, index, index.not_gt, RefusedFor, Instr.opcode]
  | update => exact exec_update_eq_refused_iff_refusedFor
  | noteon n v => simp [exec_noteon_eq_refused, RefusedFor, Instr.opcode]
  | noteoff => simp [exec_noteoff_eq_refused, RefusedFor, Instr.opcode]
  | tick => simp [exec_tick_eq_refused, RefusedFor, Instr.opcode]
  | block n => simp [exec_block_eq_refused, RefusedFor, Instr.opcode]
  | evnoteon ch n v => simp [exec_evnoteon_eq_refused, RefusedFor, Instr.opcode]
  | evnoteoff ch n v => simp [exec_evnoteoff_eq_refused, RefusedFor, Instr.opcode]

/-- Over every word: the port refuses an illegal word itself, and leaves any other to its command. -/
theorem runWord_eq_refused_iff {w : Word} {s : State} {q : Refusal} :
    runWord w s = .refused q ↔
      (Safety.Illegal w ∧ q = .illegalWord) ∨ (¬Safety.Illegal w ∧ RefusedFor (Word.op w) s q) := by
  by_cases illegal : Safety.Illegal w
  · obtain ⟨e, dec⟩ := illegal_iff_decode_error.mp illegal
    simp [runWord_of_error s dec, illegal, eq_comm]
  · obtain ⟨i, dec⟩ := exists_decode_iff_not_illegal.mpr illegal
    rw [runWord_of_ok s dec, exec_eq_refused_iff_refusedFor (decode_wellFormed dec), decode_opcode dec]
    simp [illegal]

/-! ### The marks outlive every command -/

/-- No command that completes touches a mark, INIT included. -/
theorem exec_keeps_marks {i : Instr} {s t : State} (h : exec i s = .next t) :
    t.refusalMark = s.refusalMark ∧ t.faultMark = s.faultMark := by
  cases i with
  | init sr =>
    obtain ⟨-, rfl⟩ := exec_init_eq_next.mp h
    exact ⟨State.init_refusalMark s _, State.init_faultMark s _⟩
  | setp idx d =>
    obtain ⟨-, -, rfl⟩ := exec_setp_eq_next.mp h
    exact ⟨State.writeSnap_refusalMark s idx d, State.writeSnap_faultMark s idx d⟩
  | update =>
    obtain ⟨-, -, -, -, rfl⟩ := exec_update_eq_next.mp h
    exact ⟨State.update_refusalMark s, State.update_faultMark s⟩
  | noteon n v =>
    obtain ⟨-, rfl⟩ := exec_noteon_eq_next.mp h
    exact ⟨State.voiceNoteOn_refusalMark s n, State.voiceNoteOn_faultMark s n⟩
  | noteoff =>
    obtain ⟨-, rfl⟩ := exec_noteoff_eq_next.mp h
    exact ⟨State.voiceNoteOff_refusalMark s, State.voiceNoteOff_faultMark s⟩
  | tick =>
    obtain ⟨-, -, rfl⟩ := exec_tick_eq_next.mp h
    exact ⟨State.tick_refusalMark s, State.tick_faultMark s⟩
  | block n =>
    obtain ⟨-, -, rfl⟩ := exec_block_eq_next.mp h
    rw [ticks_frame]
    exact ⟨rfl, rfl⟩
  | evnoteon ch n v =>
    obtain ⟨-, -, ⟨-, released⟩ | ⟨-, pressed⟩⟩ := exec_evnoteon_eq_next.mp h
    · rw [(noteRelease_frame released).1]
      exact ⟨rfl, rfl⟩
    · rw [notePress_frame pressed]
      exact ⟨rfl, rfl⟩
  | evnoteoff ch n v =>
    obtain ⟨-, -, released⟩ := exec_evnoteoff_eq_next.mp h
    rw [(noteRelease_frame released).1]
    exact ⟨rfl, rfl⟩

theorem runWord_eq_next {w : Word} {s t : State} (h : runWord w s = .next t) :
    ∃ i, decode w = .ok i ∧ exec i s = .next t := by
  cases dec : decode w with
  | ok i => exact ⟨i, rfl, by rwa [runWord_of_ok s dec] at h⟩
  | error e => simp [runWord_of_error s dec] at h

/-- The first reason stays, whatever the next word does. -/
theorem present_keeps_refusalMark {s : State} {r : Refusal} (w : Word) (h : s.refusalMark = some r) :
    (present s w).refusalMark = some r := by
  cases out : runWord w s with
  | next t =>
    obtain ⟨i, -, completes⟩ := runWord_eq_next out
    simp [present, out, settle, (exec_keeps_marks completes).1, h]
  | fault f => simp [present, out, settle, h]
  | refused q => simp [present_of_refused out, h]

/-- Settles O9: the port's own reason comes first, then those of `RefusedFor`, which follow the checks of each command. -/
theorem refusalsAreTheClosedList : Obligations.RefusalsAreTheClosedList := by
  unfold Obligations.RefusalsAreTheClosedList
  refine ⟨fun w s r => ?list, fun w s r => present_of_refused, fun w s r => present_keeps_refusalMark w⟩
  rw [runWord_eq_refused_iff]
  simp only [RefusedFor, and_or_left]

end Sys2Proof.Machine
end

section
/-! PROOFS. The encoding is a bijection between the well-formed commands and the words the decoder accepts, the worked encodings decode, and a word survives its serialisation (30_encoding.md R82 to R92, 20_memory.md R63). -/

namespace Sys2Proof

/-! ### Decoding an encoded command -/

theorem encode_fields (i : Instr) :
    Word.op (encode i) = i.opcode ∧ Word.idx (encode i) = i.idxField ∧ Word.zero (encode i) = 0#16 ∧
      Word.data (encode i) = i.dataField :=
  Laws.EncodedFields.packed i.opcode i.idxField i.dataField

/-- Settles O1: the fields of the encoded word are those its own format asks for, and each operand is read back from its place. -/
theorem decodeOfEncodeIsIdentity : Obligations.DecodeOfEncodeIsIdentity := by
  unfold Obligations.DecodeOfEncodeIsIdentity
  intro i wf
  obtain ⟨op, idx, zero, data⟩ := encode_fields i
  cases i <;> simp only [Instr.opcode] at op <;> simp only [Instr.idxField] at idx <;> simp only [Instr.dataField] at data
  case init sr =>
    have rate : sr ≠ 0#32 := fun none => absurd wf (by simp [none, Instr.wellFormed])
    simp [decode, zero, op, decodeInit_eq_ok, idx, data, rate]
  case setp index d =>
    have small : index.toNat ≤ 14 := of_decide_eq_true wf
    simp [decode, zero, op, decodeSetp_eq_ok, idx, data, small]
  case update | noteoff | tick => simp [decode, zero, op, decodeZ_eq_ok, idx, data]
  case block n => simp [decode, zero, op, decodeBlock_eq_ok, idx, data]
  case noteon n v =>
    obtain ⟨note, vel, bit7, high⟩ := packN_fields n v
    simp [decode, zero, op, decodeN_eq_ok, idx, data, note, vel, bit7, high]
  case evnoteon ch n v =>
    obtain ⟨chan, note, vel, bit7, bit15, high⟩ := packE_fields ch n v
    simp [decode, zero, op, decodeE_eq_ok, idx, data, chan, note, vel, bit7, bit15, high]
  case evnoteoff ch n v =>
    obtain ⟨chan, note, vel, bit7, bit15, high⟩ := packE_fields ch n v
    simp [decode, zero, op, decodeE_eq_ok, idx, data, chan, note, vel, bit7, bit15, high]

/-! ### Encoding a decoded word -/

theorem encode_eq_of_fields {i : Instr} {w : Word} (op : Word.op w = i.opcode) (idx : Word.idx w = i.idxField)
    (zero : Word.zero w = 0#16) (data : Word.data w = i.dataField) : encode i = w := by
  rw [encode, ← op, ← idx, ← data, packWord_of_fields zero]

/-- The decoder drops no bit of `idx` or `data`: each is zero or goes into an operand. -/
theorem decode_idx_data {w : Word} {i : Instr} (h : decode w = .ok i) :
    Word.idx w = i.idxField ∧ Word.data w = i.dataField := by
  obtain ⟨-, formats⟩ := decode_eq_ok h
  simp only [decodeInit_eq_ok, decodeSetp_eq_ok, decodeZ_eq_ok, decodeN_eq_ok, decodeBlock_eq_ok, decodeE_eq_ok] at formats
  obtain ⟨-, idx, -, rfl⟩ | ⟨-, -, rfl⟩ | ⟨-, idx, data, rfl⟩ | ⟨-, idx, ⟨bit7, high⟩, rfl⟩ | ⟨-, idx, data, rfl⟩ |
    ⟨-, idx, data, rfl⟩ | ⟨-, idx, rfl⟩ | ⟨-, idx, ⟨bit7, bit15, high⟩, rfl⟩ | ⟨-, idx, ⟨bit7, bit15, high⟩, rfl⟩ := formats
  · exact ⟨idx, rfl⟩
  · exact ⟨rfl, rfl⟩
  · exact ⟨idx, data⟩
  · exact ⟨idx, (packN_of_fields bit7 high).symm⟩
  · exact ⟨idx, data⟩
  · exact ⟨idx, data⟩
  · exact ⟨idx, rfl⟩
  · exact ⟨idx, (packE_of_fields bit7 bit15 high).symm⟩
  · exact ⟨idx, (packE_of_fields bit7 bit15 high).symm⟩

/-- Settles O2: a decoded word and the encoding of its command agree field by field. -/
theorem decodeAcceptsOnlyEncodings : Obligations.DecodeAcceptsOnlyEncodings := by
  unfold Obligations.DecodeAcceptsOnlyEncodings
  intro w i dec
  obtain ⟨zero, -⟩ := decode_eq_ok dec
  obtain ⟨idx, data⟩ := decode_idx_data dec
  exact ⟨Machine.decode_wellFormed dec, encode_eq_of_fields (decode_opcode dec) idx zero data⟩

/-- Settles O5: eleven closed words, decoded by evaluation. -/
theorem workedEncodingsDecode : Obligations.WorkedEncodingsDecode := by
  unfold Obligations.WorkedEncodingsDecode
  decide

/-! ### Serialised words (20 R63) -/

theorem wordOfLsb_concat (bytes : List (BitVec 8)) (b : BitVec 8) :
    wordOfLsb (bytes ++ [b]) = wordOfLsb bytes + 256 ^ bytes.length * b.toNat := by
  induction bytes with
  | nil => simp [wordOfLsb]
  | cons c bytes ih =>
    rw [List.cons_append, wordOfLsb, wordOfLsb, ih, List.length_cons, pow_succ]
    ring

/-- Byte `k` of a word, as a digit in base 256. -/
theorem toNat_byte (w : Word) (k : Nat) : (w.extractLsb' (8 * k) 8).toNat = w.toNat / 256 ^ k % 256 := by
  rw [BitVec.extractLsb'_toNat, Nat.shiftRight_eq_div_pow, pow_mul]
  rfl

/-- The first `n` bytes of a word, least significant first, are its residue modulo `256 ^ n`. -/
theorem wordOfLsb_bytes (w : Word) (n : Nat) :
    wordOfLsb ((List.range n).map fun k => w.extractLsb' (8 * k) 8) = w.toNat % 256 ^ n := by
  induction n with
  | zero => simp [wordOfLsb, Nat.mod_one]
  | succ n ih =>
    rw [List.range_succ, List.map_append, List.map_singleton, wordOfLsb_concat, ih, List.length_map, List.length_range,
      toNat_byte, Nat.mod_pow_succ]

theorem serialise_length (o : ByteOrder) (w : Word) : (serialise o w).length = 8 := by
  cases o <;> simp [serialise]

/-- Either byte order reads back the bytes from the least significant one up. -/
theorem deserialise_serialise (o : ByteOrder) (w : Word) : deserialise o (serialise o w) = some w := by
  have whole : BitVec.ofNat 64 (wordOfLsb (serialise .lsbFirst w)) = w := by
    have small : w.toNat < 256 ^ 8 := w.isLt
    rw [serialise, wordOfLsb_bytes, Nat.mod_eq_of_lt small, BitVec.ofNat_toNat, BitVec.setWidth_eq]
  have reversed : (serialise .msbFirst w).reverse = serialise .lsbFirst w := List.reverse_reverse _
  simp only [deserialise, serialise_length, if_true]
  cases o with
  | lsbFirst => exact congrArg some whole
  | msbFirst => exact congrArg some (by rw [reversed, whole])

/-- Settles O6: the bytes are the digits of the word in base 256, and the other order reverses them. -/
theorem serialisedWordReadsBack : Obligations.SerialisedWordReadsBack := by
  unfold Obligations.SerialisedWordReadsBack
  intro o w
  refine ⟨serialise_length o w, deserialise_serialise o w, rfl, fun k small => ?byte⟩
  case byte => simp [serialise, small]

end Sys2Proof
end

section
/-! PROOFS. What a completed command has written, said once for every command, and what follows for the shared cells; the step, and the marks of a run (10_state.md R23 to R52, 20_memory.md R70, R71, 60_exceptions.md R312, R313). -/

namespace Sys2Proof.Machine

open Sys2Proof.Safety

/-! ### All a completed command can have written -/

/-- What a command leaves that completes in `s`: a command with a named update, that update; TICK and BLOCK, the cells of the
audio rate, `FILT.res` not among them; a stack event, the stack and the Voice's frequency, gate and ENV1. -/
def Wrote (i : Instr) (s t : State) : Prop :=
  match i with
  | .init sr => t = s.init (.rat (u32 sr))
  | .setp idx d => t = s.writeSnap idx d
  | .update => t = s.update
  | .noteon n _ => t = s.voiceNoteOn n
  | .noteoff => t = s.voiceNoteOff
  | .tick | .block _ =>
    t = { s with env1 := t.env1, env2 := t.env2, filt := { t.filt with res := s.filt.res }, osc := t.osc, lfo := t.lfo,
                 out := t.out, outs := t.outs, draws := t.draws, drawIx := t.drawIx }
  | .evnoteon _ _ _ | .evnoteoff _ _ _ => t = { s with vm := t.vm, freq := t.freq, gate := t.gate, env1 := t.env1 }

theorem exec_wrote {i : Instr} {s t : State} (h : exec i s = .next t) : Wrote i s t := by
  cases i with
  | init sr => exact (exec_init_eq_next.mp h).2
  | setp idx d =>
    obtain ⟨-, -, written⟩ := exec_setp_eq_next.mp h
    exact written
  | update =>
    obtain ⟨-, -, -, -, written⟩ := exec_update_eq_next.mp h
    exact written
  | noteon n v => exact (exec_noteon_eq_next.mp h).2
  | noteoff => exact (exec_noteoff_eq_next.mp h).2
  | tick =>
    obtain ⟨-, -, rfl⟩ := exec_tick_eq_next.mp h
    rw [Wrote, ← tick_filt_res s]
    rfl
  | block n =>
    obtain ⟨-, -, rfl⟩ := exec_block_eq_next.mp h
    rw [Wrote, ← ticks_filt_res (u32 n) s]
    exact ticks_frame _ s
  | evnoteon ch n v =>
    obtain ⟨-, -, ⟨-, released⟩ | ⟨-, pressed⟩⟩ := exec_evnoteon_eq_next.mp h
    · exact (noteRelease_frame released).1
    · exact notePress_frame pressed
  | evnoteoff ch n v =>
    obtain ⟨-, -, released⟩ := exec_evnoteoff_eq_next.mp h
    exact (noteRelease_frame released).1

/-! ### The cells and their writers -/

section
variable {i : Instr} {s t : State} (h : exec i s = .next t)
include h

theorem exec_keeps_params_port : t.params = s.params ∧ t.port = s.port := by
  cases i <;> (rw [exec_wrote h]; exact ⟨rfl, rfl⟩)

theorem exec_keeps_draws (notTick : i ≠ .tick) (notBlock : ∀ n, i ≠ .block n) :
    t.draws = s.draws ∧ t.drawIx = s.drawIx := by
  cases i with
  | tick => exact absurd rfl notTick
  | block n => exact absurd rfl (notBlock n)
  | init | setp | update | noteon | noteoff | evnoteon | evnoteoff => rw [exec_wrote h]; exact ⟨rfl, rfl⟩

variable (notInit : ∀ sr, i ≠ .init sr)
include notInit

theorem exec_keeps_derived (notUpdate : i ≠ .update) :
    t.derived = s.derived ∧ t.vUpd = s.vUpd ∧ t.filt.res = s.filt.res := by
  cases i with
  | init sr => exact absurd rfl (notInit sr)
  | update => exact absurd rfl notUpdate
  | setp | noteon | noteoff | tick | block | evnoteon | evnoteoff => rw [exec_wrote h]; exact ⟨rfl, rfl, rfl⟩

theorem exec_keeps_snap (notSetp : ∀ idx data, i ≠ .setp idx data) : t.snap = s.snap ∧ t.pw = s.pw := by
  cases i with
  | init sr => exact absurd rfl (notInit sr)
  | setp idx d => exact absurd rfl (notSetp idx d)
  | update | noteon | noteoff | tick | block | evnoteon | evnoteoff => rw [exec_wrote h]; exact ⟨rfl, rfl⟩

/-- What only the audio rate and INIT move: the stream and its latch, and every generator but ENV1. -/
theorem exec_keeps_audio (notTick : i ≠ .tick) (notBlock : ∀ n, i ≠ .block n) :
    t.outs = s.outs ∧ t.out = s.out ∧ t.osc = s.osc ∧ t.lfo = s.lfo ∧ t.env2 = s.env2 ∧
      t.filt.core = s.filt.core ∧ t.filt.fc = s.filt.fc := by
  cases i with
  | init sr => exact absurd rfl (notInit sr)
  | tick => exact absurd rfl notTick
  | block n => exact absurd rfl (notBlock n)
  | setp | update | noteon | noteoff | evnoteon | evnoteoff =>
    rw [exec_wrote h]; exact ⟨rfl, rfl, rfl, rfl, rfl, rfl, rfl⟩

/-- NOTEOFF closes the gate and leaves ENV1 where it is; a release can retrigger it. -/
theorem exec_keeps_env1 (notTick : i ≠ .tick) (notBlock : ∀ n, i ≠ .block n) (notNoteon : ∀ note vel, i ≠ .noteon note vel)
    (notOn : ∀ ch note vel, i ≠ .evnoteon ch note vel) (notOff : ∀ ch note vel, i ≠ .evnoteoff ch note vel) :
    t.env1 = s.env1 := by
  cases i with
  | init sr => exact absurd rfl (notInit sr)
  | tick => exact absurd rfl notTick
  | block n => exact absurd rfl (notBlock n)
  | noteon n v => exact absurd rfl (notNoteon n v)
  | evnoteon ch n v => exact absurd rfl (notOn ch n v)
  | evnoteoff ch n v => exact absurd rfl (notOff ch n v)
  | setp | update | noteoff => rw [exec_wrote h]; rfl

theorem exec_keeps_sr_vInit : t.sr = s.sr ∧ t.vInit = s.vInit := by
  cases i with
  | init sr => exact absurd rfl (notInit sr)
  | setp | update | noteon | noteoff | tick | block | evnoteon | evnoteoff => rw [exec_wrote h]; exact ⟨rfl, rfl⟩

end

/-- Settles O57, one frame per group of cells. -/
theorem writersOfEachRegister : Obligations.WritersOfEachRegister := by
  unfold Obligations.WritersOfEachRegister
  intro i s t h notInit
  refine ⟨exec_keeps_derived h notInit, exec_keeps_snap h notInit, fun notTick notBlock => ?audio,
    fun notNoteon notNoteoff notOn notOff => (exec_keeps_freq_gate h notInit notNoteon notNoteoff notOn notOff).symm,
    exec_keeps_env1 h notInit, exec_keeps_sr_vInit h notInit⟩
  case audio =>
    obtain ⟨outs, out, osc, lfo, env2, core, fc⟩ := exec_keeps_audio h notInit notTick notBlock
    exact ⟨outs, out, osc, lfo, env2, core, fc, exec_keeps_draws h notTick notBlock⟩

/-- Settles O58: INIT keeps the model's own fields too. -/
theorem parametersAreFixed : Obligations.ParametersAreFixed := by
  unfold Obligations.ParametersAreFixed
  intro i s t h
  obtain ⟨params, port⟩ := exec_keeps_params_port h
  exact ⟨params, port, exec_keeps_draws h⟩

/-! ### The audio rate reads no snapshot (20 R71) -/

/-- The state with another snapshot and other written bits. -/
def State.withSnapshot (s : State) (snap : Vector Data 15) (pw : Vector Bool 15) : State := { s with snap := snap, pw := pw }

theorem tick_withSnapshot (s : State) (snap : Vector Data 15) (pw : Vector Bool 15) :
    (s.withSnapshot snap pw).tick = s.tick.withSnapshot snap pw := rfl

theorem ticks_withSnapshot (n : Nat) (s : State) (snap : Vector Data 15) (pw : Vector Bool 15) :
    State.ticks n (s.withSnapshot snap pw) = (State.ticks n s).withSnapshot snap pw := by
  induction n generalizing s with
  | zero => rfl
  | succ n ih => rw [ticks_succ, ticks_succ, tick_withSnapshot, ih]

/-- Settles O39: the snapshot passes through every tick untouched and unread. -/
theorem audioReadsNoSnapshot : Obligations.AudioReadsNoSnapshot := by
  unfold Obligations.AudioReadsNoSnapshot
  rintro i s t snap pw (rfl | ⟨n, rfl⟩) done
  · obtain ⟨snapKept, pwKept⟩ := exec_keeps_snap done nofun nofun
    obtain ⟨ready, updated, rfl⟩ := exec_tick_eq_next.mp done
    exact ⟨snapKept, pwKept, exec_tick_eq_next.mpr ⟨ready, updated, (tick_withSnapshot s snap pw).symm⟩⟩
  · obtain ⟨snapKept, pwKept⟩ := exec_keeps_snap done nofun nofun
    obtain ⟨ready, updated, rfl⟩ := exec_block_eq_next.mp done
    exact ⟨snapKept, pwKept, exec_block_eq_next.mpr ⟨ready, updated, (ticks_withSnapshot (u32 n) s snap pw).symm⟩⟩

/-! ### The step and the marks (60 R312, R313) -/

/-- Settles O7: without a mark the step takes the next word of the port and leaves it to the decoder. -/
theorem stepRunsPresentedCommand : Obligations.StepRunsPresentedCommand := by
  unfold Obligations.StepRunsPresentedCommand
  rintro s ⟨noFault, noRefusal⟩
  refine ⟨fun w rest i port dec => ?runs, fun w rest e port dec => ?refuses, step_of_port_nil noFault noRefusal⟩
  case runs => rw [step_of_port_cons noFault noRefusal port, runWord_of_ok _ dec]
  case refuses => rw [step_of_port_cons noFault noRefusal port, runWord_of_error _ dec]

/-- A fault leaves the fault mark and nothing else (60 R313). -/
theorem present_of_fault {w : Word} {s : State} {f : Fault} (h : runWord w s = .fault f) :
    present s w = { s with faultMark := s.faultMark <|> some f } := by
  rw [present, h, settle]

/-- The first fault stays, whatever the next word does. -/
theorem present_keeps_faultMark {s : State} {f : Fault} (w : Word) (h : s.faultMark = some f) :
    (present s w).faultMark = some f := by
  cases out : runWord w s with
  | next t =>
    obtain ⟨i, -, completes⟩ := runWord_eq_next out
    simp [present, out, settle, (exec_keeps_marks completes).2, h]
  | fault g => simp [present_of_fault out, h]
  | refused q => simp [present_of_refused out, h]

theorem step_of_faultMark {s : State} {f : Fault} (fault : s.faultMark = some f) : step s = .fault f := by
  simp [step, runNext, fault]

theorem step_of_refusalMark {s : State} {r : Refusal} (noFault : s.faultMark = none) (refusal : s.refusalMark = some r) :
    step s = .refused r := by
  simp [step, runNext, noFault, refusal]

/-- Settles O8: completion keeps both marks, the other outcomes write only their own, and the step looks at the marks first. -/
theorem marksAreSticky : Obligations.MarksAreSticky := by
  unfold Obligations.MarksAreSticky
  refine ⟨fun i s t => exec_keeps_marks, fun s w f => present_keeps_faultMark w, fun s w r => present_keeps_refusalMark w,
    fun s w f fault noMark => ?fault, fun s w r refused noMark => ?refusal, fun s f => step_of_faultMark,
    fun s r => step_of_refusalMark⟩
  case fault =>
    rw [present_of_fault fault, noMark]
    rfl
  case refusal =>
    rw [present_of_refused refused, noMark]
    rfl

/-! ### Before the first INIT (10 R52) -/

theorem opcode_eq_init_iff {i : Instr} : i.opcode = 0x01#8 ↔ ∃ sr, i = .init sr := by
  cases i <;> simp [Instr.opcode]

theorem opcode_eq_event_iff {i : Instr} :
    (i.opcode = 0x10#8 ∨ i.opcode = 0x11#8) ↔ ∃ ch note vel, i = .evnoteon ch note vel ∨ i = .evnoteoff ch note vel := by
  cases i <;> simp [Instr.opcode]

/-- Settles O11: before INIT the closed list has two reasons left, and `HAS_VM` is looked at first. -/
theorem commandsBeforeInitAreRefused : Obligations.CommandsBeforeInitAreRefused := by
  unfold Obligations.CommandsBeforeInitAreRefused
  refine ⟨rfl, rfl, fun i s notReady wf notInit => (exec_eq_refused_iff_refusedFor wf).mpr ?_⟩
  have notInit : i.opcode ≠ 0x01#8 := fun op => not_exists.mpr notInit (opcode_eq_init_iff.mp op)
  split_ifs with noVM
  · obtain ⟨absent, event⟩ := noVM
    exact .inl ⟨opcode_eq_event_iff.mpr event, absent, rfl⟩
  · have hasVM : i.opcode = 0x10#8 ∨ i.opcode = 0x11#8 → s.params.hasVM = true :=
      fun event => (Bool.not_eq_false _).mp (fun absent => noVM ⟨absent, opcode_eq_event_iff.mp event⟩)
    exact .inr (.inl ⟨hasVM, notInit, notReady, rfl⟩)

end Sys2Proof.Machine
end

section
/-! PROOFS. The invariant of the note-priority stack: every operation on it keeps it, so every step does; with it the gate follows the stack, and a full sequence is the only fault (46_voice_manager.md R281 to R288, 60_exceptions.md R313). -/

namespace Sys2Proof.Safety

open Sys2Proof.Machine

/-! ### The operations on the stack -/

theorem stackInv_empty : StackInv VM.empty where
  cap := Nat.zero_le _
  count := by simp [VM.empty, Vector.count_replicate]
  listed := fun n held => absurd held (by simp)
  curNone := iff_of_true rfl rfl
  curHeld := nofun

section
variable {v : VM} {n : Note} (inv : StackInv v)
include inv

theorem StackInv.hcnt_pos (held : v.isHeld n = true) : 0 < v.hcnt := inv.count ▸ VM.count_pos_of_isHeld held

/-- Sounding a held note makes it current. -/
theorem StackInv.sound (held : v.isHeld n = true) (w : Velocity) : StackInv (v.sound n w) where
  cap := inv.cap
  count := inv.count
  listed := inv.listed
  curNone := iff_of_false (Option.some_ne_none n) (inv.hcnt_pos held).ne'
  curHeld := by
    rintro c ⟨⟩
    exact held

/-- A push leaves the current note behind, so the invariant is kept once the pushed note is sounded. -/
theorem StackInv.push_sound (notHeld : v.isHeld n = false) (room : v.seq.length < 128) (w : Velocity) :
    StackInv ((v.push n).sound n w) where
  cap := by
    rw [VM.sound_seq, VM.push_seq, List.length_append, List.length_singleton]
    exact room
  count := (congrArg (· + 1) inv.count).trans (VM.count_push notHeld).symm
  listed := by
    intro m held
    rw [VM.isHeld_sound, VM.isHeld_push, Bool.or_eq_true, beq_iff_eq] at held
    rw [VM.sound_seq, VM.push_seq, List.mem_append, List.mem_singleton]
    exact held.symm.imp_left (inv.listed m)
  curNone := iff_of_false (Option.some_ne_none n) (Nat.succ_ne_zero _)
  curHeld := by
    rintro c ⟨⟩
    simp [VM.isHeld_push]

theorem StackInv.release_count (held : v.isHeld n = true) : (v.release n).hcnt = (v.release n).held.count true := by
  have before := VM.count_release held
  rw [VM.release_hcnt, inv.count]
  omega

/-- A held note that is not current is not the only one: the current one stays. -/
theorem StackInv.cur_stays_held (held : v.isHeld n = true) (notCurrent : v.cur ≠ some n) :
    ∃ c, v.cur = some c ∧ (v.release n).isHeld c = true := by
  have sounding : v.cur ≠ none := fun none => (inv.hcnt_pos held).ne' (inv.curNone.mp none)
  obtain ⟨c, current⟩ := Option.ne_none_iff_exists'.mp sounding
  have other : c ≠ n := fun same => notCurrent (same ▸ current)
  refine ⟨c, current, ?_⟩
  simp [VM.isHeld_release, other, inv.curHeld c current]

theorem StackInv.release_hcnt_pos (held : v.isHeld n = true) (notCurrent : v.cur ≠ some n) : 0 < (v.release n).hcnt := by
  obtain ⟨c, -, stays⟩ := inv.cur_stays_held held notCurrent
  exact inv.release_count held ▸ VM.count_pos_of_isHeld stays

/-- What the release leaves held was held before, and so stands in the sequence. -/
theorem StackInv.mem_of_release {m : Note} (held : (v.release n).isHeld m = true) : m ∈ v.seq := by
  rw [VM.isHeld_release, Bool.and_eq_true] at held
  exact inv.listed m held.2

theorem StackInv.release_other (held : v.isHeld n = true) (notCurrent : v.cur ≠ some n) : StackInv (v.release n) where
  cap := inv.cap
  count := inv.release_count held
  listed := fun m stays => inv.mem_of_release stays
  curNone := by
    obtain ⟨c, current, -⟩ := inv.cur_stays_held held notCurrent
    exact iff_of_false (by simp [current]) (inv.release_hcnt_pos held notCurrent).ne'
  curHeld := by
    intro d current
    obtain ⟨c, current', stays⟩ := inv.cur_stays_held held notCurrent
    obtain rfl : c = d := Option.some.inj (current'.symm.trans current)
    exact stays

/-- The pop of the last held note empties the stack. -/
theorem StackInv.pop_last (held : v.isHeld n = true) (last : (v.release n).hcnt = 0) :
    StackInv { v.release n with seq := [], cur := none } where
  cap := Nat.zero_le _
  count := inv.release_count held
  listed := by
    intro m stays
    have pos : 0 < (v.release n).held.count true := VM.count_pos_of_isHeld (v := v.release n) stays
    rw [← inv.release_count held, last] at pos
    exact absurd pos (lt_irrefl 0)
  curNone := iff_of_true rfl last
  curHeld := nofun

/-- The scan trims released entries alone and stops at a held one. -/
theorem StackInv.pop_scan {c : Note} (held : v.isHeld n = true) (others : (v.release n).hcnt ≠ 0)
    (top : (v.release n).scan.getLast? = some c) :
    StackInv { v.release n with seq := (v.release n).scan, cur := some c } where
  cap := (v.release n).scan_prefix.length_le.trans inv.cap
  count := inv.release_count held
  listed := fun m stays => VM.mem_scan (inv.mem_of_release stays) stays
  curNone := iff_of_false (Option.some_ne_none c) others
  curHeld := by
    rintro d ⟨⟩
    exact VM.isHeld_of_getLast?_scan (v := v.release n) top

end

end Sys2Proof.Safety

namespace Sys2Proof.Machine

open Sys2Proof.Safety

/-! ### The stack events -/

section
variable {n : Note} {s t : State} (inv : StackInv s.vm)
include inv

theorem noteRelease_keeps_stackInv (h : noteRelease n s = .next t) : StackInv t.vm := by
  obtain ⟨-, rfl⟩ | ⟨held, -, popped⟩ | ⟨held, notCurrent, rfl⟩ := noteRelease_eq_next.mp h
  · exact inv
  · obtain ⟨last, rfl⟩ | ⟨others, c, top, rfl⟩ := popNote_eq_next.mp popped
    · exact inv.pop_last held last
    · exact inv.pop_scan held others top
  · exact inv.release_other held notCurrent

theorem notePress_keeps_stackInv {v : Velocity} (h : notePress n v s = .next t) : StackInv t.vm := by
  obtain ⟨held, rfl⟩ | ⟨notHeld, room, rfl⟩ := notePress_eq_next.mp h
  · exact inv.sound held v
  · exact inv.push_sound notHeld room v

theorem exec_keeps_stackInv {i : Instr} (h : exec i s = .next t) : StackInv t.vm := by
  cases i with
  | init sr =>
    obtain ⟨-, rfl⟩ := exec_init_eq_next.mp h
    rw [State.init_vm]
    split
    · exact stackInv_empty
    · exact inv
  | evnoteon ch n v =>
    obtain ⟨-, -, ⟨-, released⟩ | ⟨-, pressed⟩⟩ := exec_evnoteon_eq_next.mp h
    · exact noteRelease_keeps_stackInv inv released
    · exact notePress_keeps_stackInv inv pressed
  | evnoteoff ch n v =>
    obtain ⟨-, -, released⟩ := exec_evnoteoff_eq_next.mp h
    exact noteRelease_keeps_stackInv inv released
  | setp | update | noteon | noteoff | tick | block =>
    rw [exec_keeps_vm h nofun nofun nofun]
    exact inv

end

/-- Settles O54: the port holds no part of the stack, and every command keeps the invariant. -/
theorem stackInvariantIsKept : Obligations.StackInvariantIsKept := by
  unfold Obligations.StackInvariantIsKept
  intro s t inv done
  obtain ⟨-, -, ⟨-, rfl⟩ | ⟨w, rest, i, -, -, completes⟩⟩ := step_eq_next done
  · exact inv
  · exact exec_keeps_stackInv (s := { s with port := rest }) inv completes

/-! ### The gate (46 R286 (d)) -/

section
variable {n : Note} {s t : State} (inv : StackInv s.vm)
include inv

theorem noteRelease_keeps_gateInv (gate : GateInv s) (h : noteRelease n s = .next t) : GateInv t := by
  obtain ⟨-, rfl⟩ | ⟨held, -, popped⟩ | ⟨held, notCurrent, rfl⟩ := noteRelease_eq_next.mp h
  · exact gate
  · obtain ⟨last, rfl⟩ | ⟨others, c, -, rfl⟩ := popNote_eq_next.mp popped
    · exact iff_of_false Bool.false_ne_true (Nat.not_lt.mpr last.le)
    · exact iff_of_true rfl (Nat.pos_of_ne_zero others)
  · exact iff_of_true (gate.mpr (inv.hcnt_pos held)) (inv.release_hcnt_pos held notCurrent)

theorem notePress_gateInv {v : Velocity} (h : notePress n v s = .next t) : GateInv t := by
  obtain ⟨held, rfl⟩ | ⟨-, -, rfl⟩ := notePress_eq_next.mp h
  · exact iff_of_true rfl (inv.hcnt_pos held)
  · exact iff_of_true rfl (Nat.succ_pos _)

end

/-- Settles O55: a press opens the gate on a held note; a release closes it with the last one. -/
theorem gateFollowsTheStack : Obligations.GateFollowsTheStack := by
  unfold Obligations.GateFollowsTheStack
  intro i s t hasVM inv gate notNoteon notNoteoff h
  cases i with
  | init sr =>
    obtain ⟨-, rfl⟩ := exec_init_eq_next.mp h
    rw [GateInv, State.init_vm_of_hasVM _ hasVM]
    exact iff_of_false Bool.false_ne_true (lt_irrefl 0)
  | noteon n v => exact absurd rfl (notNoteon n v)
  | noteoff => exact absurd rfl notNoteoff
  | evnoteon ch n v =>
    obtain ⟨-, -, ⟨-, released⟩ | ⟨-, pressed⟩⟩ := exec_evnoteon_eq_next.mp h
    · exact noteRelease_keeps_gateInv inv gate released
    · exact notePress_gateInv inv pressed
  | evnoteoff ch n v =>
    obtain ⟨-, -, released⟩ := exec_evnoteoff_eq_next.mp h
    exact noteRelease_keeps_gateInv inv gate released
  | setp | update | tick | block =>
    rw [GateInv, exec_keeps_vm h nofun nofun nofun, (exec_keeps_freq_gate h nofun nofun nofun nofun nofun).2]
    exact gate

/-! ### Faults (46 R288, 60 R313) -/

theorem require_ne_fault {c : Bool} {r : Refusal} {k : Result} {f : Fault} (h : k ≠ .fault f) : require c r k ≠ .fault f :=
  fun fault => h (require_eq_fault.mp fault).2

theorem notePress_eq_fault {n : Note} {v : Velocity} {s : State} {f : Fault} :
    notePress n v s = .fault f ↔ s.vm.isHeld n = false ∧ vmCap ≤ s.sp ∧ f = .stackOverflow := by
  unfold notePress
  split_ifs with held full
  · simp [held]
  · simp [held, full, eq_comm]
  · simp [full]

/-- With the invariant the scan of a pop always finds an entry. -/
theorem noteRelease_ne_fault {n : Note} {s : State} (inv : StackInv s.vm) (f : Fault) : noteRelease n s ≠ .fault f := by
  cases held : s.vm.isHeld n with
  | false => rw [noteRelease_of_not_held held]; nofun
  | true =>
    by_cases current : s.vm.cur = some n
    · rw [noteRelease_of_current held current]
      by_cases last : (s.vm.release n).hcnt = 0
      · rw [popNote_eq_next.mpr (.inl ⟨last, rfl⟩)]; nofun
      · obtain ⟨c, top⟩ := VM.exists_getLast?_scan_release inv held last
        rw [popNote_eq_next.mpr (.inr ⟨last, c, top, rfl⟩)]; nofun
    · rw [noteRelease_of_not_current held current]; nofun

theorem exec_evnoteon_eq_fault {ch : Channel} {n : Note} {v : Velocity} {s : State} {f : Fault} (inv : StackInv s.vm) :
    exec (.evnoteon ch n v) s = .fault f ↔
      s.params.hasVM = true ∧ s.vInit = true ∧ v ≠ 0#7 ∧ s.vm.isHeld n = false ∧ vmCap ≤ s.sp ∧ f = .stackOverflow := by
  rw [exec, execEvnoteon, require_eq_fault, require_eq_fault]
  split_ifs with zero
  · simp [zero, noteRelease_ne_fault inv]
  · simp [zero, notePress_eq_fault]

/-- A command that is no press of a note does not fault while the stack keeps its invariant. -/
theorem exec_ne_fault {i : Instr} {s : State} (f : Fault) (inv : StackInv s.vm)
    (notOn : ∀ ch note vel, i ≠ .evnoteon ch note vel) : exec i s ≠ .fault f := by
  cases i with
  | evnoteon ch n v => exact absurd rfl (notOn ch n v)
  | evnoteoff ch n v => exact require_ne_fault (require_ne_fault (noteRelease_ne_fault inv f))
  | init | noteon | noteoff => exact require_ne_fault nofun
  | setp | tick | block => exact require_ne_fault (require_ne_fault nofun)
  | update => exact require_ne_fault (require_ne_fault (require_ne_fault (require_ne_fault nofun)))

/-- Settles O10: only a press can fault, at a sequence that its capacity bounds. -/
theorem onlyStackOverflowFaults : Obligations.OnlyStackOverflowFaults := by
  unfold Obligations.OnlyStackOverflowFaults
  intro i s f inv
  constructor
  · intro fault
    by_cases press : ∃ ch note vel, i = .evnoteon ch note vel
    · obtain ⟨ch, note, vel, rfl⟩ := press
      obtain ⟨hasVM, ready, nonzero, notHeld, full, rfl⟩ := (exec_evnoteon_eq_fault inv).mp fault
      exact ⟨rfl, hasVM, ready, le_antisymm inv.cap full, ch, note, vel, rfl, nonzero, notHeld⟩
    · simp only [not_exists] at press
      exact absurd fault (exec_ne_fault f inv press)
  · rintro ⟨rfl, hasVM, ready, full, ch, note, vel, rfl, nonzero, notHeld⟩
    exact (exec_evnoteon_eq_fault inv).mpr ⟨hasVM, ready, nonzero, notHeld, full.ge, rfl⟩

end Sys2Proof.Machine
end

section
/-! PROOFS. The ranges of the machine: the clamp sites of UPDATE, the outputs of the Oscillator Engine, the Modulation Source and the envelopes, and the range invariant, which every step keeps (42_voice.md R185, 43_oscillator.md R210, R211, 44_lfo.md R231, R240, 45_envelopes.md R264). -/

namespace Sys2Proof.Machine

open Sys2Proof.Safety

/-! ### The clamp sites of UPDATE -/

theorem clamp_within (v : Val) {lo hi : ℚ} (h : lo ≤ hi) : Within lo hi (v.clamp (.rat lo) (.rat hi)) := by
  have lower := Val.le_clamp (v := v) (lo := .rat lo) (hi := .rat hi) (by simpa using h)
  have upper := Val.clamp_le v (.rat lo) (.rat hi)
  rw [Val.real_rat] at lower upper
  exact ⟨lower, upper⟩

/-- Between the ends of the knob the exponential map lies between the end values. -/
theorem expmap_within (p : Prim) {k : Val} {lo hi : ℚ} (lo_pos : 0 < lo) (lo_lt : lo < hi) (hk : InUnit k) :
    Within lo hi (expmap p k (.rat lo) (.rat hi)) := by
  obtain ⟨k_nonneg, k_le_one⟩ := hk
  obtain ⟨-, least, most⟩ := expmap_of_knob p k lo_pos lo_lt
  have lo_pos' : 0 < (Val.rat lo).real := by rw [Val.real_rat]; exact_mod_cast lo_pos
  have lo_lt' : (Val.rat lo).real < (Val.rat hi).real := by rw [Val.real_rat, Val.real_rat]; exact_mod_cast lo_lt
  have zero : (Val.rat 0).real = 0 := by simp
  have one : (Val.rat 1).real = 1 := by simp
  constructor
  · rcases k_nonneg.eq_or_lt with at_zero | pos
    · exact (least at_zero.symm).ge
    · rw [← Val.real_rat lo, ← expmap_zero p lo_pos' lo_lt' zero]
      exact (expmap_lt p lo_pos' lo_lt' (zero.trans_lt pos)).le
  · rcases k_le_one.eq_or_lt with at_one | below
    · exact (most at_one).le
    · rw [← Val.real_rat hi, ← expmap_one p lo_pos' lo_lt' one]
      exact (expmap_lt p lo_pos' lo_lt' (below.trans_eq one.symm)).le

theorem adsrTime_within (p : Prim) {k : Val} {lo hi c : ℚ} (lo_pos : 0 < lo) (lo_lt : lo < hi) (c_pos : 0 < c)
    (hk : InUnit k) : Within lo hi (adsrTime p k (.rat lo) (.rat hi) (.rat c)) := by
  have mem := adsrTime_mem p (k := k) (lo := .rat lo) (hi := .rat hi) (c := .rat c)
    (by simpa using lo_pos) (by simpa using lo_lt) (by simpa using c_pos) hk
  rwa [Val.real_rat, Val.real_rat] at mem

theorem sq_inUnit {k : Val} (hk : InUnit k) : InUnit k.sq := by
  rw [InUnit, Val.real_sq]
  exact ⟨sq_nonneg _, pow_le_one₀ hk.1 hk.2⟩

/-- The cube of a number in [-1, 1] is in [-1, 1]. -/
theorem abs_cube_le_one {c : ℝ} (h : |c| ≤ 1) : |c * c * c| ≤ 1 := by
  rw [abs_mul, abs_mul]
  exact mul_le_one₀ (mul_le_one₀ h (abs_nonneg c) h) (abs_nonneg c) h

theorem deriveLfo_cnRate_inBip (p : Params) (snap : Vector Data 15) : InBip (deriveLfo p snap).cnRate := by
  obtain ⟨lower, upper⟩ := clamp_inUnit (snapReal snap .lfoRate)
  rw [InBip, real_deriveLfo_cnRate p snap rfl]
  refine abs_le.mp (abs_cube_le_one (abs_le.mpr ?_))
  constructor <;> linarith

/-- The rate never takes `1 − r` below 0, so the `max` of `L_GLOW` never acts. -/
theorem real_deriveLfo_gLow_eq (p : Params) (snap : Vector Data 15) :
    (deriveLfo p snap).gLow.real = 1 - (deriveLfo p snap).cnRate.real := by
  have range := deriveLfo_cnRate_inBip p snap
  rw [real_deriveLfo_gLow, max_eq_right (by linarith [range.2])]

theorem real_deriveLfo_gHigh_eq (p : Params) (snap : Vector Data 15) :
    (deriveLfo p snap).gHigh.real = 1 + (deriveLfo p snap).cnRate.real / 2 := by
  have range := deriveLfo_cnRate_inBip p snap
  rw [real_deriveLfo_gHigh, max_eq_right (by linarith [range.1])]
  ring

theorem deriveFilter_ranges (snap : Vector Data 15) :
    Within 20 18000 (deriveFilter snap).baseCut ∧ Within 0 (93 / 100) (deriveFilter snap).reso := by
  have cutoff := clamp_within (snapReal snap .cutoff) (lo := 20) (hi := 18000) (by norm_num)
  have resonance := clamp_within (snapReal snap .res) (lo := 0) (hi := 93 / 100) (by norm_num)
  push_cast at cutoff resonance
  exact ⟨cutoff, resonance⟩

theorem deriveEnv_ranges (m : Prim) (snap : Vector Data 15) :
    Within (2 / 1000) 2 (deriveEnv m snap).tAtt ∧ Within (3 / 1000) (3 / 2) (deriveEnv m snap).tDec ∧
      Within (10 / 1000) 3 (deriveEnv m snap).tRel := by
  have attack := adsrTime_within m (lo := 2 / 1000) (hi := 2) (c := 7 / 10) (by norm_num) (by norm_num) (by norm_num)
    (clamp_inUnit (snapReal snap .attack))
  have decay := adsrTime_within m (lo := 3 / 1000) (hi := 3 / 2) (c := 1 / 2) (by norm_num) (by norm_num) (by norm_num)
    (clamp_inUnit (snapReal snap .decay))
  have release := adsrTime_within m (lo := 10 / 1000) (hi := 3) (c := 1 / 2) (by norm_num) (by norm_num) (by norm_num)
    (clamp_inUnit (snapReal snap .release))
  push_cast at attack decay release
  exact ⟨attack, decay, release⟩

theorem deriveOsc_ranges (snap : Vector Data 15) :
    InUnit (deriveOsc snap).baseW ∧ InUnit (deriveOsc snap).syncAmt ∧ InUnit (deriveOsc snap).foldBase := by
  obtain ⟨lower, upper⟩ : InBip (deriveOsc snap).char := clamp_inBip _
  rw [InUnit, InUnit, InUnit, real_deriveOsc_baseW, real_deriveOsc_syncAmt, real_deriveOsc_foldBase]
  exact ⟨⟨by linarith, by linarith⟩, ⟨le_max_right _ _, max_le upper zero_le_one⟩,
    ⟨le_max_right _ _, max_le (by linarith) zero_le_one⟩⟩

theorem deriveLfo_rates (p : Params) (snap : Vector Data 15) :
    Within (1 / 100) 100 (deriveLfo p snap).rateHz ∧ Within (1 / 2) 4 (deriveLfo p snap).plRatio ∧
      Within 1 50 (deriveLfo p snap).randHz := by
  have knob := clamp_inUnit (snapReal snap .lfoRate)
  have rate := expmap_within p.math (lo := 1 / 100) (hi := 100) (by norm_num) (by norm_num) knob
  have ratio := expmap_within p.math (lo := 1 / 2) (hi := 4) (by norm_num) (by norm_num) knob
  have random := expmap_within p.math (lo := 1) (hi := 50) (by norm_num) (by norm_num) (sq_inUnit knob)
  push_cast at rate ratio random
  exact ⟨rate, ratio, random⟩

theorem deriveLfo_gains (p : Params) (snap : Vector Data 15) :
    Within 0 2 (deriveLfo p snap).gLow ∧ Within (1 / 2) (3 / 2) (deriveLfo p snap).gHigh := by
  obtain ⟨lower, upper⟩ := deriveLfo_cnRate_inBip p snap
  rw [Within, Within, real_deriveLfo_gLow_eq, real_deriveLfo_gHigh_eq]
  exact ⟨⟨by linarith, by linarith⟩, by linarith, by linarith⟩

theorem derive_inRange (p : Params) (snap : Vector Data 15) : DerivedInRange (derive p snap) := by
  obtain ⟨baseCut, reso⟩ := deriveFilter_ranges snap
  obtain ⟨tAtt, tDec, tRel⟩ := deriveEnv_ranges p.math snap
  obtain ⟨baseW, syncAmt, foldBase⟩ := deriveOsc_ranges snap
  obtain ⟨rateHz, plRatio, randHz⟩ := deriveLfo_rates p snap
  obtain ⟨gLow, gHigh⟩ := deriveLfo_gains p snap
  exact {
    baseCut, reso, tAtt, tDec, tRel, baseW, syncAmt, foldBase, rateHz, plRatio, randHz, gLow, gHigh
    drive := deriveFilter_drive_mem snap
    cEnvd := clamp_inBip _
    cLfod := clamp_inBip _
    sus := clamp_inUnit _
    char := clamp_inBip _
    envd := clamp_inBip _
    lfod := clamp_inBip _
    cnRate := deriveLfo_cnRate_inBip p snap }

/-- Settles O24: UPDATE derives every register by a clamp or by a map that stays between its end values. -/
theorem clampSitesHoldForEverySnapshot : Obligations.ClampSitesHoldForEverySnapshot := by
  unfold Obligations.ClampSitesHoldForEverySnapshot
  intro s t done
  obtain ⟨-, -, -, -, rfl⟩ := exec_update_eq_next.mp done
  exact ⟨derive_inRange _ _, real_deriveLfo_gLow_eq _ _, real_deriveLfo_gHigh_eq _ _⟩

end Sys2Proof.Machine
end

section
/-! PROOFS. The ranges at the audio rate: the clamp sites and the sample of the Oscillator Engine, the output of the Modulation Source, the outputs of the envelopes (43_oscillator.md R210, R211, 44_lfo.md R240, 45_envelopes.md R264). -/

namespace Sys2Proof.Machine

open Sys2Proof.Safety

/-! ### The Oscillator Engine -/

theorem syncExponent_within (r : OscRegs) (env lfo : Val) : Within 0 5 (syncExponent r env lfo) := by
  rw [Within, real_syncExponent]
  exact ⟨le_min (le_max_right _ _) (by norm_num), min_le_right _ _⟩

/-- Five octaves are a factor of 32. -/
theorem syncRatio_reference_le (r : OscRegs) (env lfo : Val) : (syncRatio .reference r env lfo).real ≤ 32 := by
  have top : (exp2 .reference (.rat 5)).real = 32 := (exp2_int 5 (by simp)).trans (by norm_num)
  rw [← top]
  exact exp2_le .reference (by simpa using (syncExponent_within r env lfo).2)

/-- Settles O41: every amount is clamped where it is formed, and the ratio is a monotone function of a clamped exponent. -/
theorem oscillatorClampSites : Obligations.OscillatorClampSites := by
  unfold Obligations.OscillatorClampSites
  intro r env lfo m
  have exponent := syncExponent_within r env lfo
  exact ⟨exponent, one_le_exp2 m exponent.1, syncRatio_reference_le r env lfo, clamp_inUnit _, clamp_inUnit _,
    clamp_inUnit _, clamp_inUnit _⟩

/-- The two branches that end in the wavefold are in range whatever the oscillator gives. -/
theorem oscProcess_inBip_of_fold (p : Params) (sr f env lfo : Val) {r : OscRegs} (b : OscBank)
    (folds : r.mode = .sawPair ∨ (r.mode = .triDig ∧ r.char.real < 0)) : InBip (oscProcess p sr r f env lfo b).2 := by
  obtain mode | ⟨mode, negative⟩ := folds
  · rw [oscProcess_sawPair p sr f env lfo b mode]
    exact fold_inBip _ _
  · rw [oscProcess_triDig p sr f env lfo b mode, triDig_fold p.math sr f env lfo b.t negative]
    exact fold_inBip _ _

theorem oscProcess_inBip_of_ref (p : Params) (sr f env lfo : Val) {r : OscRegs} {b : OscBank}
    (pulseOsc : ∃ c, b.p = .ref c ∧ InPhase c.ps) (triOsc : ∃ c, b.t = .ref c ∧ InPhase c.ps) :
    InBip (oscProcess p sr r f env lfo b).2 := by
  obtain ⟨cp, atP, phaseP⟩ := pulseOsc
  obtain ⟨ct, atT, phaseT⟩ := triOsc
  cases mode : r.mode with
  | pulse =>
    rw [oscProcess_pulse p sr f env lfo b mode, atP]
    exact waveOut_inBip .square (pulseWidth r env lfo) phaseP
  | sawPair => exact oscProcess_inBip_of_fold p sr f env lfo b (.inl mode)
  | triDig =>
    rcases lt_trichotomy r.char.real 0 with negative | neutral | positive
    · exact oscProcess_inBip_of_fold p sr f env lfo b (.inr ⟨mode, negative⟩)
    · rw [oscProcess_triDig p sr f env lfo b mode, triDig_plain p.math sr f env lfo b.t neutral, atT]
      exact waveOut_inBip .triangle (.rat (1 / 2)) phaseT
    · rw [oscProcess_triDig p sr f env lfo b mode, triDig_sync p.math sr f env lfo b.t positive, atT]
      exact waveOut_inBip .triangle (.rat (1 / 2)) phaseT

/-- Settles O42: a reference oscillator's waveform is in range, and the wavefold brings any sample into it. -/
theorem oscillatorOutputRange : Obligations.OscillatorOutputRange := by
  unfold Obligations.OscillatorOutputRange
  intro p sr f env lfo r b
  exact ⟨oscProcess_inBip_of_ref p sr f env lfo, oscProcess_inBip_of_fold p sr f env lfo b⟩

/-! ### The Modulation Source -/

/-- A point between two numbers of [-1, 1] is in [-1, 1]. -/
theorem between_mem {x y a : ℝ} (hx : -1 ≤ x ∧ x ≤ 1) (hy : -1 ≤ y ∧ y ≤ 1) (ha : 0 ≤ a) (ha' : a ≤ 1) :
    -1 ≤ x + a * (y - x) ∧ x + a * (y - x) ≤ 1 := by
  have point := (convex_Icc (-1 : ℝ) 1).add_smul_sub_mem hx hy ⟨ha, ha'⟩
  rwa [smul_eq_mul, Set.mem_Icc] at point

/-- After a step of the clock its phase is a phase and it holds what it held or the new draw. -/
theorem holdStep_inRange {sr rate ν : Val} {c : HoldCells} (sr_pos : 0 < sr.real) (rate_nonneg : 0 ≤ rate.real)
    (draw : InBip ν) (phase : InPhase c.ph) (held : InBip c.h) :
    InPhase (holdStep sr rate ν c).ph ∧ InBip (holdStep sr rate ν c).h := by
  rcases lt_or_ge (c.ph.real + rate.real / sr.real) 1 with running | wrapped
  · rw [holdStep_of_lt ν running]
    refine ⟨?_, held⟩
    simp only [InPhase, Val.real_add, Val.real_div]
    exact ⟨add_nonneg phase.1 (div_nonneg rate_nonneg sr_pos.le), running⟩
  · rw [holdStep_of_wrap ν wrapped]
    exact ⟨frac_inPhase _, draw⟩

theorem smoothCells_inRange {sr rate ν : Val} {c : SmoothCells} (sr_pos : 0 < sr.real) (rate_nonneg : 0 ≤ rate.real)
    (draw : InBip ν) (phase : InPhase c.ph) (prev : InBip c.prev) (next : InBip c.next) :
    InPhase (smoothCells sr rate ν c).ph ∧ InBip (smoothCells sr rate ν c).prev ∧
      InBip (smoothCells sr rate ν c).next := by
  rcases lt_or_ge (c.ph.real + rate.real / sr.real) 1 with running | wrapped
  · rw [smoothCells_of_lt ν running]
    refine ⟨?_, prev, next⟩
    simp only [InPhase, Val.real_add, Val.real_div]
    exact ⟨add_nonneg phase.1 (div_nonneg rate_nonneg sr_pos.le), running⟩
  · rw [smoothCells_of_wrap ν wrapped]
    exact ⟨frac_inPhase _, next, draw⟩

/-- The smoothed generator's output lies between the two draws it holds. -/
theorem smStep_ref_inBip {sr rate ν : Val} {c : SmoothCells} (sr_pos : 0 < sr.real) (rate_nonneg : 0 ≤ rate.real)
    (draw : InBip ν) (phase : InPhase c.ph) (prev : InBip c.prev) (next : InBip c.next) :
    InBip (smStep sr rate ν (.ref c)).2 := by
  obtain ⟨phase', prev', next'⟩ := smoothCells_inRange sr_pos rate_nonneg draw phase prev next
  rw [InBip, real_smStep_ref, mul_comm (_ - _)]
  exact between_mem prev' next' phase'.1 phase'.2.le

/-- The ideal one-pole moves its state part of the way to its input, since `EXP(−2π·200/SR)` is in (0, 1). -/
theorem onePole_inBip {sr y x : Val} (sr_pos : 0 < sr.real) (hy : InBip y) (hx : InBip x) :
    InBip (onePole .reference .reference sr y x) := by
  have exponent : ((((Val.rat (-2)).mul (pi .reference)).mul (.rat 200)).div sr).real =
      -2 * (pi .reference).real * 200 / sr.real := by simp
  have negative : -2 * (pi .reference).real * 200 / sr.real < 0 :=
    div_neg_of_neg_of_pos (by linarith [pi_reference_pos]) sr_pos
  obtain ⟨lower, upper⟩ := exp_mem_of_neg .reference (exponent.trans_lt negative)
  rw [InBip, real_onePole_reference .reference exponent]
  exact between_mem hy hx (by linarith) (by linarith)

theorem cnStep_inBip {sr gLow gHigh ν : Val} {c : ColoredCells} (sr_pos : 0 < sr.real) (draw : InBip ν)
    (hy1 : InBip c.y1) (hy2 : InBip c.y2) :
    InBip (cnStep .reference .reference sr gLow gHigh ν c).1.y1 ∧
      InBip (cnStep .reference .reference sr gLow gHigh ν c).1.y2 := by
  have first : InBip (cnStep .reference .reference sr gLow gHigh ν c).1.y1 := onePole_inBip sr_pos hy1 draw
  exact ⟨first, onePole_inBip sr_pos hy2 first⟩

/-- The mixture of the two poles: at the gains `1 − ρ` and `1 + ρ/2` its bound `(1 − ρ) + 2·(1 + ρ/2)`, halved, is 1.5 for every ρ. -/
theorem colored_mixture_mem {ρ y1 y2 ν : ℝ} (hρ : -1 ≤ ρ ∧ ρ ≤ 1) (hy1 : -1 ≤ y1 ∧ y1 ≤ 1) (hy2 : -1 ≤ y2 ∧ y2 ≤ 1)
    (hν : -1 ≤ ν ∧ ν ≤ 1) :
    -3 / 2 ≤ 1 / 2 * ((1 - ρ) * y2 + (1 + ρ / 2) * (ν - y1)) ∧
      1 / 2 * ((1 - ρ) * y2 + (1 + ρ / 2) * (ν - y1)) ≤ 3 / 2 := by
  have low : |(1 - ρ) * y2| ≤ 1 - ρ := by
    rw [abs_mul, abs_of_nonneg (by linarith)]
    exact mul_le_of_le_one_right (by linarith) (abs_le.mpr hy2)
  have high : |(1 + ρ / 2) * (ν - y1)| ≤ (1 + ρ / 2) * 2 := by
    rw [abs_mul, abs_of_nonneg (by linarith)]
    exact mul_le_mul_of_nonneg_left (abs_le.mpr ⟨by linarith, by linarith⟩) (by linarith)
  obtain ⟨low1, low2⟩ := abs_le.mp low
  obtain ⟨high1, high2⟩ := abs_le.mp high
  constructor <;> linarith

/-- Settles O45: the periodic generators by their waveforms, the random ones because a draw, or a point between two, is in range,
the colored noise by the mixture of its two poles. -/
theorem lfoOutputRange : Obligations.LfoOutputRange := by
  unfold Obligations.LfoOutputRange
  rintro p sr nf r ν b sr_pos sh sm cn rate_nonneg ⟨sin, atSin⟩ ⟨tri, atTri⟩ ⟨pl, atPl⟩ ⟨hold, atSh, holdPhase, held⟩
    ⟨smooth, atSm, smoothPhase, prev, next⟩
  refine ⟨fun notColored => ?plain, fun polesRef mathRef hy1 hy2 => ?colored⟩
  case plain =>
    cases mode : r.mode with
    | sine =>
      rw [(lfoStep_sine p sr nf r ν b).2 mode, atSin]
      exact sint_inBip _ _
    | triangle =>
      rw [(lfoStep_triangle p sr nf r ν b).2 mode, atTri]
      exact tri4_inBip _
    | pitchLocked =>
      rw [(lfoStep_pitchLocked p sr nf r ν b).2 mode, atPl]
      exact sint_inBip _ _
    | stepped =>
      rw [(lfoStep_stepped p sr nf r ν b).2 mode, atSh]
      exact (holdStep_inRange sr_pos rate_nonneg sh holdPhase held).2
    | smoothed =>
      rw [(lfoStep_smoothed p sr nf r ν b).2 mode, atSm]
      exact smStep_ref_inBip sr_pos rate_nonneg sm smoothPhase prev next
    | colored => exact absurd mode notColored
  case colored =>
    obtain ⟨cells, output⟩ := lfoStep_colored p sr nf r ν b
    rw [polesRef, mathRef] at cells output
    obtain ⟨y1, y2⟩ := cnStep_inBip (gLow := r.gLow) (gHigh := r.gHigh) sr_pos cn hy1 hy2
    rw [cells]
    refine ⟨y1, y2, fun mode rate low high => ?_⟩
    rw [Within, output mode, real_cnStep, low, high]
    exact colored_mixture_mem rate y1 y2 cn

/-! ### The envelopes -/

theorem env1Step_inRange {sr : Val} {e : EnvRegs} (g : Bool) {st : Env} (sr_pos : 0 < sr.real) (tAtt_pos : 0 < e.tAtt.real)
    (tDec_pos : 0 < e.tDec.real) (tRel_pos : 0 < e.tRel.real) (sus : InUnit e.sus) (level : EnvInRange st) :
    InUnit (env1Step sr e g st).2 ∧ EnvInRange (env1Step sr e g st).1 := by
  cases st with
  | ref stage l =>
    have output := env1Step_ref_inUnit g stage sr_pos tAtt_pos tDec_pos tRel_pos sus level
    exact ⟨output, output⟩
  | own seen h => exact ⟨env1Step_own_inUnit sr e g seen h, trivial⟩

theorem env2Step_inRange {sr tRel : Val} (g : Bool) {st : Env} (sr_pos : 0 < sr.real) (tRel_pos : 0 < tRel.real)
    (level : EnvInRange st) : InUnit (env2Step sr tRel g st).2 ∧ EnvInRange (env2Step sr tRel g st).1 := by
  cases st with
  | ref stage l =>
    cases g with
    | true => simp [env2Step_open, EnvInRange, InUnit]
    | false =>
      have output := releaseLevel_inUnit sr_pos tRel_pos level
      exact ⟨output, output⟩
  | own seen h => exact ⟨env2Step_own_inUnit sr tRel g seen h, trivial⟩

theorem tickEnv_inRange {s : State} (sr_pos : 0 < s.sr.real) (regs : DerivedInRange s.derived) (env1 : EnvInRange s.env1) :
    InUnit (tickEnv s).2 ∧ EnvInRange (tickEnv s).1 :=
  env1Step_inRange s.gate sr_pos (by linarith [regs.tAtt.1]) (by linarith [regs.tDec.1]) (by linarith [regs.tRel.1])
    regs.sus env1

theorem tickAmp_inRange {s : State} (sr_pos : 0 < s.sr.real) (regs : DerivedInRange s.derived) (env1 : EnvInRange s.env1)
    (env2 : EnvInRange s.env2) : InUnit (tickAmp s).2 ∧ EnvInRange (tickAmp s).1 := by
  rw [tickAmp, amplitude]
  split_ifs
  · exact ⟨(tickEnv_inRange sr_pos regs env1).1, env2⟩
  · exact ⟨by simp [InUnit], env2⟩
  · exact env2Step_inRange s.gate sr_pos (by linarith [regs.tRel.1]) env2
  · exact ⟨by simp [InUnit], env2⟩

/-- Settles O48: a reference level is its output, and the amplitude is one of the two outputs or a constant. -/
theorem envelopeOutputRange : Obligations.EnvelopeOutputRange := by
  unfold Obligations.EnvelopeOutputRange
  intro s rate regs env1 env2
  have sr_pos : 0 < s.sr.real := one_pos.trans_le rate
  obtain ⟨out1, level1⟩ := tickEnv_inRange sr_pos regs env1
  obtain ⟨out2, level2⟩ := tickAmp_inRange sr_pos regs env1 env2
  exact ⟨out1, out2, level1, level2⟩

end Sys2Proof.Machine
end

section
/-! PROOFS. The range invariant of the machine: the power-on state meets it, every command keeps it, and so does every step (10_state.md, 40_primitives.md R112, 42_voice.md R185, 43_oscillator.md R211). -/

namespace Sys2Proof.Machine

open Sys2Proof.Safety

/-! ### The generators after INIT and at power-on -/

theorem zero_inUnit : InUnit (.rat 0) := by simp [InUnit]

theorem zero_inBip : InBip (.rat 0) := by simp [InBip]

theorem zero_inPhase : InPhase (.rat 0) := by simp [InPhase]

theorem envInit_inRange (p : Prim) (sr : Val) : EnvInRange (envInit p sr) := by
  cases p with
  | reference => exact zero_inUnit
  | own => trivial

theorem oscInit_inRange (p : Prim) (sr : Val) : OscInRange (oscInit p sr) := by
  cases p with
  | reference => exact ⟨zero_inPhase, zero_inPhase⟩
  | own => trivial

/-- The ranges of the LFO generators, as `RangeInv` has them. -/
def LfoInRange (b : LfoBank) : Prop :=
  PhaseInRange b.gSin ∧ PhaseInRange b.gTri ∧ PhaseInRange b.gPl ∧ HoldInRange b.gSh ∧ SmoothInRange b.gSm

theorem lfoZero_inRange : LfoInRange LfoBank.zero :=
  ⟨zero_inPhase, zero_inPhase, zero_inPhase, ⟨zero_inPhase, zero_inBip⟩, zero_inPhase, zero_inBip, zero_inBip⟩

theorem lfoInit_inRange (p : Prim) (sr : Val) : LfoInRange (lfoInit p sr) := by
  cases p with
  | reference => exact lfoZero_inRange
  | own => exact ⟨trivial, trivial, trivial, trivial, trivial⟩

/-- Settles O60: at power-on every generator stands at 0, the stack is empty and the gate closed. -/
theorem resetMeetsTheInvariants : Obligations.ResetMeetsTheInvariants := by
  unfold Obligations.ResetMeetsTheInvariants
  obtain ⟨gSin, gTri, gPl, gSh, gSm⟩ := lfoZero_inRange
  have ranges : RangeInv State.reset := {
    gSin, gTri, gPl, gSh, gSm
    freqInit := by rw [State.reset, defaultParams, Val.real_max]; simp
    freq := zero_inUnit.1
    updInit := nofun
    updWritten := nofun
    sampleRate := nofun
    derived := nofun
    res := nofun
    env1 := zero_inUnit
    env2 := zero_inUnit
    oscP := ⟨zero_inPhase, zero_inPhase⟩
    oscS := ⟨zero_inPhase, zero_inPhase⟩
    oscT := ⟨zero_inPhase, zero_inPhase⟩
    out := zero_inBip
    frames := nofun }
  exact ⟨ranges, stackInv_empty, iff_of_false Bool.false_ne_true (lt_irrefl 0), rfl, rfl⟩

/-! ### One tick of the generators -/

/-- A reference oscillator's phases are fractions after any step, whatever they were. -/
theorem oscStep_inRange (sr : Val) (st : Gen OscPhases) (x : OscIn) : OscInRange (oscStep sr st x).1 := by
  cases st with
  | ref c => exact advancePhases_inPhase sr c x
  | own h => trivial

theorem triDig_inRange (m : Prim) (sr : Val) (r : OscRegs) (f env lfo : Val) (st : Gen OscPhases) :
    OscInRange (triDig m sr r f env lfo st).1 := by
  unfold triDig
  split_ifs <;> exact oscStep_inRange sr _ _

theorem oscProcess_inRange (p : Params) (sr : Val) (r : OscRegs) (f env lfo : Val) {b : OscBank} (oscP : OscInRange b.p)
    (oscS : OscInRange b.s) (oscT : OscInRange b.t) :
    OscInRange (oscProcess p sr r f env lfo b).1.p ∧ OscInRange (oscProcess p sr r f env lfo b).1.s ∧
      OscInRange (oscProcess p sr r f env lfo b).1.t := by
  cases mode : r.mode with
  | pulse =>
    rw [oscProcess_pulse p sr f env lfo b mode]
    exact ⟨oscStep_inRange sr _ _, oscS, oscT⟩
  | sawPair =>
    rw [oscProcess_sawPair p sr f env lfo b mode]
    exact ⟨oscP, oscStep_inRange sr _ _, oscT⟩
  | triDig =>
    rw [oscProcess_triDig p sr f env lfo b mode]
    exact ⟨oscP, oscS, triDig_inRange p.math sr r f env lfo _⟩

theorem sinStep_inRange (m : Prim) (sr rate : Val) (g : Gen Val) : PhaseInRange (sinStep m sr rate g).1 := by
  cases g with
  | ref ph => exact frac_inPhase _
  | own h => trivial

theorem triStep_inRange (sr rate : Val) (g : Gen Val) : PhaseInRange (triStep sr rate g).1 := by
  cases g with
  | ref ph => exact frac_inPhase _
  | own h => trivial

theorem plStep_inRange (m : Prim) (sr ratio nf : Val) (g : Gen Val) : PhaseInRange (plStep m sr ratio nf g).1 := by
  cases g with
  | ref ph => exact frac_inPhase _
  | own h => trivial

section
variable {sr rate ν : Val} (sr_pos : 0 < sr.real) (rate_nonneg : 0 ≤ rate.real) (draw : InBip ν)
include sr_pos rate_nonneg draw

theorem shStep_inRange {g : Gen HoldCells} (range : HoldInRange g) : HoldInRange (shStep sr rate ν g).1 := by
  cases g with
  | ref c => exact holdStep_inRange sr_pos rate_nonneg draw range.1 range.2
  | own h => trivial

theorem smStep_inRange {g : Gen SmoothCells} (range : SmoothInRange g) : SmoothInRange (smStep sr rate ν g).1 := by
  cases g with
  | ref c =>
    obtain ⟨phase, prev, next⟩ := range
    exact smoothCells_inRange sr_pos rate_nonneg draw phase prev next
  | own h => trivial

end

/-- The random generators need their clock and their draws in range, the periodic ones nothing. -/
theorem lfoStep_inRange (p : Params) {sr : Val} {r : LfoRegs} (nf : Val) {ν : Draw} {b : LfoBank} (sr_pos : 0 < sr.real)
    (rate_nonneg : 0 ≤ r.randHz.real) (sh : InBip ν.sh) (sm : InBip ν.sm) (gSh : HoldInRange b.gSh)
    (gSm : SmoothInRange b.gSm) : LfoInRange (lfoStep p sr r nf ν b).1 :=
  ⟨sinStep_inRange _ _ _ _, triStep_inRange _ _ _, plStep_inRange _ _ _ _ _, shStep_inRange sr_pos rate_nonneg sh gSh,
    smStep_inRange sr_pos rate_nonneg sm gSm⟩

/-! ### The notes -/

theorem note2hz_nonneg (p : Params) (n : Note) : 0 ≤ (note2hz p n).real := by
  unfold note2hz
  split <;> simp

theorem env1Retrigger_inRange (hard : Bool) {st : Env} (range : EnvInRange st) : EnvInRange (env1Retrigger hard st) := by
  cases st with
  | ref stage level =>
    cases hard with
    | false => exact range
    | true => exact zero_inUnit
  | own seen h => trivial

/-! ### The state updates keep the invariant -/

theorem allWritten_markWritten {pw : Vector Bool 15} (i : BitVec 8) (h : allWritten pw = true) :
    allWritten (markWritten pw i) = true := by
  rw [allWritten_eq_true] at h ⊢
  intro j
  have cell := h j
  simp only [Fin.getElem_fin] at cell
  simp [markWritten, Vector.getElem_setIfInBounds, cell]

section
variable {s : State} (inv : RangeInv s)
include inv

/-- The invariant speaks neither of the port nor of the stack. -/
theorem rangeInv_withPort (port : List Word) : RangeInv { s with port := port } := { inv with }

theorem rangeInv_withVm (vm : VM) : RangeInv { s with vm := vm } := { inv with }

theorem rangeInv_init {r : Val} (rate : 1 ≤ r.real) : RangeInv (s.init r) := by
  obtain ⟨gSin, gTri, gPl, gSh, gSm⟩ := lfoInit_inRange s.params.lfoGens r
  exact {
    gSin, gTri, gPl, gSh, gSm
    freqInit := inv.freqInit
    freq := inv.freqInit
    updInit := nofun
    updWritten := nofun
    sampleRate := fun _ => rate
    derived := nofun
    res := nofun
    env1 := envInit_inRange _ _
    env2 := envInit_inRange _ _
    oscP := oscInit_inRange _ _
    oscS := oscInit_inRange _ _
    oscT := oscInit_inRange _ _
    out := zero_inBip
    frames := nofun }

theorem rangeInv_writeSnap (i : BitVec 8) (d : Data) : RangeInv (s.writeSnap i d) :=
  { inv with updWritten := fun upd => allWritten_markWritten i (inv.updWritten upd) }

/-- UPDATE sets `V_UPD` past its checks, with every register derived afresh. -/
theorem rangeInv_update (ready : s.vInit = true) (written : allWritten s.pw = true) : RangeInv s.update :=
  have derived : DerivedInRange (derive s.params s.snap) := derive_inRange s.params s.snap
  { inv with
    updInit := fun _ => ready
    updWritten := fun _ => written
    derived := fun _ => derived
    res := fun _ => derived.reso }

theorem rangeInv_voiceNoteOn (n : Note) : RangeInv (s.voiceNoteOn n) :=
  { inv with freq := note2hz_nonneg s.params n, env1 := env1Retrigger_inRange s.params.retrigHard inv.env1 }

theorem rangeInv_voiceNoteOff : RangeInv s.voiceNoteOff := { inv with }

theorem rangeInv_tick (ready : s.vInit = true) (updated : s.vUpd = true) : RangeInv s.tick := by
  have sr_pos : 0 < s.sr.real := one_pos.trans_le (inv.sampleRate ready)
  have regs := inv.derived updated
  have rate_nonneg : 0 ≤ s.derived.lfo.randHz.real := zero_le_one.trans regs.randHz.1
  obtain ⟨sh, sm, -⟩ := nextDraw_inBip s
  obtain ⟨gSin, gTri, gPl, gSh, gSm⟩ := lfoStep_inRange s.params s.freq sr_pos rate_nonneg sh sm inv.gSh inv.gSm
  obtain ⟨oscP, oscS, oscT⟩ := oscProcess_inRange s.params s.sr s.derived.osc s.freq (tickEnv s).2 (tickLfo s).2
    inv.oscP inv.oscS inv.oscT
  have frames : ∀ p ∈ s.tick.outs, p.1 = p.2 ∧ InBip p.1 := by
    rw [State.tick_outs, List.forall_mem_append, List.forall_mem_singleton]
    exact ⟨inv.frames, rfl, tickOut_inBip s⟩
  exact { inv with
    gSin, gTri, gPl, gSh, gSm, oscP, oscS, oscT, frames
    res := fun upd => (tick_filt_res s).symm ▸ inv.res upd
    env1 := (tickEnv_inRange sr_pos regs inv.env1).2
    env2 := (tickAmp_inRange sr_pos regs inv.env1 inv.env2).2
    out := tickOut_inBip s }

theorem rangeInv_ticks (n : Nat) (ready : s.vInit = true) (updated : s.vUpd = true) : RangeInv (State.ticks n s) := by
  have kept := ticks_induction (P := fun t => RangeInv t ∧ t.vInit = true ∧ t.vUpd = true)
    (fun t ⟨inv, ready, updated⟩ => ⟨rangeInv_tick inv ready updated, ready, updated⟩) n s ⟨inv, ready, updated⟩
  exact kept.1

/-! ### Every command keeps the invariant -/

theorem noteRelease_keeps_rangeInv {n : Note} {t : State} (h : noteRelease n s = .next t) : RangeInv t := by
  obtain ⟨-, rfl⟩ | ⟨-, -, popped⟩ | ⟨-, -, rfl⟩ := noteRelease_eq_next.mp h
  · exact inv
  · obtain ⟨-, rfl⟩ | ⟨-, c, -, rfl⟩ := popNote_eq_next.mp popped
    · exact rangeInv_voiceNoteOff (rangeInv_withVm inv _)
    · exact rangeInv_voiceNoteOn (rangeInv_withVm inv _) c
  · exact rangeInv_withVm inv _

theorem notePress_keeps_rangeInv {n : Note} {v : Velocity} {t : State} (h : notePress n v s = .next t) : RangeInv t := by
  obtain ⟨-, rfl⟩ | ⟨-, -, rfl⟩ := notePress_eq_next.mp h <;>
    exact rangeInv_voiceNoteOn (rangeInv_withVm inv _) n

theorem exec_keeps_rangeInv {i : Instr} {t : State} (h : exec i s = .next t) : RangeInv t := by
  cases i with
  | init sr =>
    obtain ⟨rate, rfl⟩ := exec_init_eq_next.mp h
    exact rangeInv_init inv (by simpa using rate)
  | setp idx d =>
    obtain ⟨-, -, rfl⟩ := exec_setp_eq_next.mp h
    exact rangeInv_writeSnap inv idx d
  | update =>
    obtain ⟨ready, written, -, -, rfl⟩ := exec_update_eq_next.mp h
    exact rangeInv_update inv ready written
  | noteon n v =>
    obtain ⟨-, rfl⟩ := exec_noteon_eq_next.mp h
    exact rangeInv_voiceNoteOn inv n
  | noteoff =>
    obtain ⟨-, rfl⟩ := exec_noteoff_eq_next.mp h
    exact rangeInv_voiceNoteOff inv
  | tick =>
    obtain ⟨ready, updated, rfl⟩ := exec_tick_eq_next.mp h
    exact rangeInv_tick inv ready updated
  | block n =>
    obtain ⟨ready, updated, rfl⟩ := exec_block_eq_next.mp h
    exact rangeInv_ticks inv (u32 n) ready updated
  | evnoteon ch n v =>
    obtain ⟨-, -, ⟨-, released⟩ | ⟨-, pressed⟩⟩ := exec_evnoteon_eq_next.mp h
    · exact noteRelease_keeps_rangeInv inv released
    · exact notePress_keeps_rangeInv inv pressed
  | evnoteoff ch n v =>
    obtain ⟨-, -, released⟩ := exec_evnoteoff_eq_next.mp h
    exact noteRelease_keeps_rangeInv inv released

end

/-- Settles O59: a step waits, or takes a word from the port and runs a command. -/
theorem rangesAreKept : Obligations.RangesAreKept := by
  unfold Obligations.RangesAreKept
  intro s t inv done
  obtain ⟨-, -, ⟨-, rfl⟩ | ⟨w, rest, i, -, -, completes⟩⟩ := step_eq_next done
  · exact inv
  · exact exec_keeps_rangeInv (rangeInv_withPort inv rest) completes

end Sys2Proof.Machine
end

section
/-! PROOFS. What the model chooses where the spec leaves a choice: arbitrary generators, the note frequencies, the supplied draws; and the silence before the first note (40_primitives.md R125, R127, 41_lifecycle.md R155, 70_reset_and_hazards.md R341). -/

namespace Sys2Proof.Machine

open Sys2Proof.Safety

/-! ### Arbitrary generators (log 5) -/

@[simp] theorem envInit_own (sr : Val) : envInit .own sr = .own false (Config.envInit sr) := rfl

@[simp] theorem env1Retrigger_own (hard seen : Bool) (h : Hidden) :
    env1Retrigger hard (.own seen h) = .own seen (Config.envRetrigger h) := rfl

/-- Settles O15: INIT and NOTEON give an arbitrary generator's state to the generator. -/
theorem arbitraryGeneratorsStart : Obligations.ArbitraryGeneratorsStart := by
  unfold Obligations.ArbitraryGeneratorsStart
  refine ⟨fun sr s t done => ?init, fun note vel s t seen h env done => ?noteon⟩
  case init =>
    obtain ⟨-, rfl⟩ := exec_init_eq_next.mp done
    refine ⟨fun law => by simp [law], fun gens => ?_⟩
    rw [State.init_lfo, State.init_sr, gens]
    exact ⟨rfl, rfl, rfl, rfl, rfl⟩
  case noteon =>
    obtain ⟨-, rfl⟩ := exec_noteon_eq_next.mp done
    rw [State.voiceNoteOn_env1, env, env1Retrigger_own]

/-! ### The note frequencies (41 R155) -/

/-- The ideal `EXP2` is above 0: it rises, and at the whole number below its argument it is a power of 2. -/
theorem exp2_reference_pos (x : Val) : 0 < (exp2 .reference x).real := by
  have whole : (exp2 .reference (.rat x.floor)).real = 2 ^ x.floor := exp2_int x.floor (by simp)
  have pos : (0 : ℝ) < 2 ^ x.floor := by positivity
  have below : (Val.rat x.floor).real ≤ x.real := by
    rw [Val.real_rat, Rat.cast_intCast, Val.floor_eq]
    exact Int.floor_le _
  exact (pos.trans_eq whole.symm).trans_le (exp2_le .reference below)

/-- With the ideal `EXP2` the default formula is not negative, so the `max` of the model never acts. -/
theorem real_note2hz_reference {p : Params} (reference : p.note2hz = .reference) (ideal : p.math = .reference) {n : Note}
    {x : Val} (exponent : x.real = ((n.toNat : ℝ) - 69) / 12) :
    (note2hz p n).real = 440 * (exp2 .reference x).real := by
  have same : (exp2 .reference (.rat (((n.toNat : ℚ) - 69) / 12))).real = (exp2 .reference x).real :=
    exp2_congr .reference (by simp [exponent])
  have pos := exp2_reference_pos x
  rw [note2hz, reference, ideal]
  simp only [Val.real_max, Val.real_mul, Val.real_rat, same]
  push_cast
  rw [max_eq_right (by positivity)]

/-- A note a whole number of octaves from 69. -/
theorem real_note2hz_octave {p : Params} (reference : p.note2hz = .reference) (ideal : p.math = .reference) {n : Note}
    (k : ℤ) (octaves : ((n.toNat : ℝ) - 69) / 12 = k) : (note2hz p n).real = 440 * 2 ^ k := by
  rw [real_note2hz_reference reference ideal (x := .rat k) (by rw [octaves, Val.real_rat, Rat.cast_intCast]),
    exp2_int k (by rw [Val.real_rat, Rat.cast_intCast])]

/-- Settles O16: the formula, and its value at whole octaves. -/
theorem noteToFrequency : Obligations.NoteToFrequency := by
  unfold Obligations.NoteToFrequency
  refine ⟨note2hz_nonneg, fun p reference ideal => ⟨fun n x => real_note2hz_reference reference ideal, ?_, ?_, ?_⟩⟩
  · rw [real_note2hz_octave reference ideal 0 (by norm_num)]
    norm_num
  · rw [real_note2hz_octave reference ideal (-1) (by norm_num)]
    norm_num
  · rw [real_note2hz_octave reference ideal 1 (by norm_num)]
    norm_num

/-! ### Supplied draws (log 6) -/

/-- The limits of a draw change nothing at a draw in [-1, 1]. -/
theorem nextDraw_of_supplied {s : State} {d : Draw} {rest : List Draw} (supplied : s.draws = d :: rest) (sh : InBip d.sh)
    (sm : InBip d.sm) (cn : InBip d.cn) : nextDraw s = d := by
  have kept {v : Val} (h : InBip v) : v.clamp (.rat (-1)) (.rat 1) = v :=
    Val.clamp_of_mem (by simpa using h.1) (by simpa using h.2)
  rw [nextDraw, rawDraw, supplied]
  simp only [kept sh, kept sm, kept cn]

/-- Settles O34: the LFO of a TICK is stepped with the first supplied draw, and the tail is left. -/
theorem suppliedDrawsAreUsed : Obligations.SuppliedDrawsAreUsed := by
  unfold Obligations.SuppliedDrawsAreUsed
  intro s t d rest supplied sh sm cn done
  obtain ⟨-, -, rfl⟩ := exec_tick_eq_next.mp done
  have lfo : tickLfo s = lfoStep s.params s.sr s.derived.lfo s.freq d s.lfo := by
    rw [tickLfo, nextDraw_of_supplied supplied sh sm cn]
  rw [State.tick_lfo, tick_filt_fc, State.tick_draws, tickCutoff, lfo, supplied]
  exact ⟨rfl, rfl, rfl⟩

/-! ### The silence before the first note (70 R341) -/

/-- The gate has never been open, in an amplitude mode that listens to an envelope. -/
structure Silent (s : State) : Prop where
  sr_pos : 0 < s.sr.real
  tRel_pos : 0 < s.derived.env.tRel.real
  env1 : NeverGated s.env1
  env2 : NeverGated s.env2
  shut : s.gate = false
  mode : s.derived.aMode = 0#32 ∨ s.derived.aMode = 2#32

theorem env1Step_neverGated (sr : Val) (e : EnvRegs) {st : Env} (never : NeverGated st) :
    (env1Step sr e false st).2.real = 0 ∧ NeverGated (env1Step sr e false st).1 := by
  cases st with
  | ref stage l =>
    obtain ⟨rfl, -⟩ := never
    simp [env1Step_rest, NeverGated]
  | own seen h =>
    obtain rfl : seen = false := never
    rw [env1Step_own_ungated]
    exact ⟨by simp, rfl⟩

/-- The release segment starts at level 0 and ends there at once. -/
theorem env2Step_neverGated {sr tRel : Val} {st : Env} (sr_pos : 0 < sr.real) (tRel_pos : 0 < tRel.real)
    (never : NeverGated st) : (env2Step sr tRel false st).2.real = 0 ∧ NeverGated (env2Step sr tRel false st).1 := by
  cases st with
  | ref stage l =>
    obtain ⟨-, zero⟩ := never
    have level : (releaseLevel sr l tRel).real = 0 := by
      have fall : 0 < 1 / (tRel.real * sr.real) := by positivity
      rw [real_releaseLevel, zero, max_eq_left (by linarith)]
    rw [env2Step_closed]
    exact ⟨level, releaseStage_of_eq_zero level, level⟩
  | own seen h =>
    obtain rfl : seen = false := never
    rw [env2Step_own_ungated]
    exact ⟨by simp, rfl⟩

theorem tickEnv_of_silent {s : State} (silent : Silent s) : (tickEnv s).2.real = 0 ∧ NeverGated (tickEnv s).1 := by
  rw [tickEnv, silent.shut]
  exact env1Step_neverGated s.sr s.derived.env silent.env1

theorem tickAmp_of_silent {s : State} (silent : Silent s) : (tickAmp s).2.real = 0 ∧ NeverGated (tickAmp s).1 := by
  obtain adsr | releaseOnly := silent.mode
  · rw [tickAmp_adsr adsr]
    exact ⟨(tickEnv_of_silent silent).1, silent.env2⟩
  · rw [tickAmp_releaseOnly releaseOnly, silent.shut]
    exact env2Step_neverGated silent.sr_pos silent.tRel_pos silent.env2

theorem tick_keeps_silent {s : State} (silent : Silent s) : Silent s.tick :=
  { silent with env1 := (tickEnv_of_silent silent).2, env2 := (tickAmp_of_silent silent).2 }

/-- A run of ticks of a silent state appends frames of zeros. -/
theorem ticks_of_silent (n : Nat) {s : State} (silent : Silent s) :
    (∃ frames, (State.ticks n s).outs = s.outs ++ frames ∧ frames.length = n ∧
      ∀ p ∈ frames, p.1.real = 0 ∧ p.2.real = 0) ∧ Silent (State.ticks n s) := by
  induction n generalizing s with
  | zero => exact ⟨⟨[], (List.append_nil _).symm, rfl, nofun⟩, silent⟩
  | succ n ih =>
    obtain ⟨⟨frames, outs, count, zeros⟩, after⟩ := ih (tick_keeps_silent silent)
    have zero : (tickOut s).real = 0 := tickOut_of_amp_zero (tickAmp_of_silent silent).1
    refine ⟨⟨(tickOut s, tickOut s) :: frames, ?_, by rw [List.length_cons, count], ?_⟩, after⟩
    · rw [ticks_succ, outs, State.tick_outs, List.append_assoc, List.singleton_append]
    · exact List.forall_mem_cons.mpr ⟨⟨zero, zero⟩, zeros⟩

/-- Settles O38: the amplitude of a silent state is 0, and the soft clip keeps it. -/
theorem silentUntilFirstNote : Obligations.SilentUntilFirstNote := by
  unfold Obligations.SilentUntilFirstNote
  intro n s t sr_pos tRel_pos env1 env2 shut mode done
  obtain ⟨-, -, rfl⟩ := exec_block_eq_next.mp done
  obtain ⟨frames, after⟩ := ticks_of_silent (u32 n) ⟨sr_pos, tRel_pos, env1, env2, shut, mode⟩
  exact ⟨frames, after.env1, after.env2⟩

end Sys2Proof.Machine
end
